-- ==== Sys2Proof/Word.lean ====
section
/-!
DEFINITION. The words of the block (00_scope.md R7, R8) and the three byte positions of a 32-bit word.
Bit 0 is the least significant bit.
-/

namespace Sys2Proof

/-- One byte of the wire or of a register (20_memory.md R60). -/
abbrev Byte := BitVec 8

/-- A 16-bit field value, read unsigned (10_state.md R23, `u16`). -/
abbrev Half := BitVec 16

/-- The 32-bit word that holds a 24-bit field (40_field_packer.md R140). -/
abbrev Word := BitVec 32

end Sys2Proof
end

