-- ==== Sys2Proof/Config.lean ====
section
/-!
DEFINITION. The implementation parameters of 00_scope.md R6 that the spec leaves OPEN. `Build` is one choice
of them; `Config.build` is the build of the machine at reset, and it has no body: nothing can be proved of its
values (log entry 6).
`HOST_BUS_MAP` is not here: the model addresses registers by name, as R6 says.
-/

namespace Sys2Proof.Config

/-- One choice of the OPEN parameters of R6. Every value of this type is a choice R6 allows, and every choice
R6 allows is a value of it:
a DSPError code lies in −128..−1, so it is given by its low seven bits, bit 7 being 1;
a capacity is given by how far it exceeds the least value R6 allows. -/
structure Build where
  /-- `SYSSTATUS_CODES`, any finite subset of 0..255. -/
  sysStatusCodes : List Byte
  /-- `DSPERROR_CODES`, the low seven bits of each member other than `DSP_INTERNAL_ERROR`. -/
  dspErrorCodes : List (BitVec 7)
  /-- `DSP_INTERNAL_ERROR`, its low seven bits. -/
  dspInternalError : BitVec 7
  /-- `DIAGMODE_CODES`, any finite subset of 0..255. -/
  diagModeCodes : List Byte
  /-- `RX_MAX_LEN` − 30. -/
  rxExtra : Nat
  /-- `CHK_MAX_LEN` − 29. -/
  chkExtra : Nat
deriving DecidableEq, Repr, Inhabited

/-- The build of the machine at reset: uninterpreted. -/
opaque build : Build

/-- `DSP_INTERNAL_ERROR` as a signed 8-bit code, in −128..−1 (R6). -/
def Build.internalErrorCode (b : Build) : Byte := 1#1 ++ b.dspInternalError

/-- Membership in `SYSSTATUS_CODES`. -/
def Build.isSysStatus (b : Build) (v : Byte) : Bool := b.sysStatusCodes.contains v

/-- Membership in `DSPERROR_CODES`: negative, and either `DSP_INTERNAL_ERROR` or one of the other members. -/
def Build.isDspError (b : Build) (c : Byte) : Bool :=
  c.msb && ((c.setWidth 7 == b.dspInternalError) || b.dspErrorCodes.contains (c.setWidth 7))

/-- Membership in `DIAGMODE_CODES`. -/
def Build.isDiagMode (b : Build) (v : Byte) : Bool := b.diagModeCodes.contains v

/-- `RX_MAX_LEN`, an integer ≥ 30. -/
def Build.rxMaxLen (b : Build) : Nat := b.rxExtra + 30

/-- `CHK_MAX_LEN`, an integer ≥ 29. -/
def Build.chkMaxLen (b : Build) : Nat := b.chkExtra + 29

end Sys2Proof.Config
end

