-- ==== Sys2Proof/Machine/Types.lean ====
section
/-!
DEFINITION. The data types of the block: commands, variants, the ten payload records, errors, messages, the
registers' names and the host's steps. Plain data throughout.
-/

namespace Sys2Proof.Machine

open Sys2Proof

/-- The closed set of the fifteen commands (10_state.md R22, 30_encoding.md R95). -/
inductive Command
  | mode00 | mode01 | mode02 | mode03
  | positionPoll | systemStatus | systemParams
  | firstTarget | nextTarget | firstImage | nextImage
  | eepromData | requestEeprom | cameraCalibration | diagnosticMode
deriving DecidableEq, Repr

/-- The ten payload variants (30_encoding.md R93). -/
inductive Variant
  | poll | positionPoll | systemStatus | systemControl | targetData | imageData
  | eepromData | eepromDataRequest | cameraCalibration | diagnosticMode
deriving DecidableEq, Repr

/-- The four fields whose byte can fail to map (60_exceptions.md R384). -/
inductive FieldId
  | pollCommand | sysStatusStatus | sysStatusDsp | diagMode
deriving DecidableEq, Repr

/-- A `dsp` value (10_state.md R23): an iteration count 0..127, or a signed 8-bit error code. -/
inductive Dsp
  | iterations (n : BitVec 7)
  | error (code : Byte)
deriving DecidableEq, Repr

/-- A `raw16x8` value (10_state.md R23): sixteen bytes in order. -/
structure Raw16 where
  d0 : Byte
  d1 : Byte
  d2 : Byte
  d3 : Byte
  d4 : Byte
  d5 : Byte
  d6 : Byte
  d7 : Byte
  d8 : Byte
  d9 : Byte
  d10 : Byte
  d11 : Byte
  d12 : Byte
  d13 : Byte
  d14 : Byte
  d15 : Byte
deriving DecidableEq, Repr

/-- 30_encoding.md R100. -/
structure Poll where
  command : Byte
deriving DecidableEq, Repr

/-- 30_encoding.md R101. -/
structure PositionPoll where
  pitch : Word
  yaw : Word
  roll : Word
  posZ : Word
  posY : Word
  posX : Word
  zoom : Word
  focus : Word
  userDefined : Half
deriving DecidableEq, Repr

/-- 30_encoding.md R102. -/
structure SystemStatus where
  switchFlags : Byte
  ledFlags : Byte
  systemStatus : Byte
  fwVersion0 : Byte
  fwVersion1 : Byte
  fwVersion2 : Byte
  dspStatus : Dsp
  targetsSeen : Byte
  targetsIdentified : Byte
  targetsUsed : Byte
  rmsError : Word
deriving DecidableEq, Repr

/-- 30_encoding.md R103. -/
structure SystemControl where
  param0 : Byte
  param1 : Byte
  param2 : Byte
  param3 : Byte
  param4 : Byte
  param5 : Byte
  param6 : Byte
  param7 : Byte
  param8 : Byte
  param9 : Byte
deriving DecidableEq, Repr

/-- 30_encoding.md R104. -/
structure TargetData where
  studioId : Byte
  targetNumber : Half
  targetX : Word
  targetY : Word
  targetZ : Word
  targetFlags : Word
deriving DecidableEq, Repr

/-- 30_encoding.md R105. -/
structure ImageData where
  targetIndex : Byte
  targetNum : Half
  targetX : Word
  targetY : Word
  xError : Word
  yError : Word
deriving DecidableEq, Repr

/-- 30_encoding.md R106. -/
structure EepromData where
  address : Half
  data : Raw16
deriving DecidableEq, Repr

/-- 30_encoding.md R107. -/
structure EepromDataRequest where
  address : Half
deriving DecidableEq, Repr

/-- 30_encoding.md R108. -/
structure CameraCalibration where
  cal0 : Word
  cal1 : Word
  cal2 : Word
  cal3 : Word
  cal4 : Word
  cal5 : Word
  cal6 : Word
  cal7 : Word
  cal8 : Word
deriving DecidableEq, Repr

/-- 30_encoding.md R109. -/
structure DiagnosticMode where
  mode : Byte
deriving DecidableEq, Repr

/-- The tagged union over the ten variants (10_state.md R23). -/
inductive Payload
  | poll (p : Poll)
  | positionPoll (p : PositionPoll)
  | systemStatus (p : SystemStatus)
  | systemControl (p : SystemControl)
  | targetData (p : TargetData)
  | imageData (p : ImageData)
  | eepromData (p : EepromData)
  | eepromDataRequest (p : EepromDataRequest)
  | cameraCalibration (p : CameraCalibration)
  | diagnosticMode (p : DiagnosticMode)
deriving DecidableEq, Repr

/-- `TX_REQ.payload`: all ten records side by side (10_state.md R25). -/
structure TxRecords where
  poll : Poll
  positionPoll : PositionPoll
  systemStatus : SystemStatus
  systemControl : SystemControl
  targetData : TargetData
  imageData : ImageData
  eepromData : EepromData
  eepromDataRequest : EepromDataRequest
  cameraCalibration : CameraCalibration
  diagnosticMode : DiagnosticMode
deriving DecidableEq, Repr

/-- An error kind with its information record (60_exceptions.md R381, R383). An `ERRINFO` register is an
`Option Err`, `none` being the record `None`. -/
inductive Err
  | frameTooShort
  | checksumMismatch
  | unknownCommand (byte : Byte)
  | lengthMismatch (expected actual : Nat)
  | invalidEnumValue (field : FieldId) (byte : Byte)
  | rangeError (value min max : Int)
  | wrongVariant (expected : Variant) (actual : Option Variant)
  | invalidCommand (allowed : BitVec 15) (got : Byte)
deriving DecidableEq, Repr

/-- A decoded message (10_state.md R24). -/
structure Message where
  command : Command
  cameraId : Byte
  payload : Payload
  checksum : Byte
deriving DecidableEq, Repr

/-- The two ways the block executes a command (43_commands.md, one rule per command; log entry 1):
a received frame that carries it, with its operands camera id and payload (DEFRAME), or the framing of a
request whose `TX_REQ.command` is the command, the operands being the TX request registers (FRAME). -/
inductive Form (α : Type)
  | deframe (cameraId : Byte) (payload : α)
  | frame
deriving DecidableEq, Repr

/-- What a channel fetches at its COMPLETE step: the RX channel `RX_BUF[0..RX_LEN]` (20_memory.md R61), the
TX channel the command byte `TX_REQ.command`. -/
inductive Fetched
  | rx (bytes : List Byte)
  | tx (command : Byte)
deriving DecidableEq, Repr

/-- A byte buffer (20_memory.md R60) in canonical form; Machine/Memory.lean reads and writes it. -/
abbrev Memory := List Host.Cell

/-- The 32-bit word fields of `TX_REQ.payload` (types `s24` and `u24`). -/
inductive WordField
  | pitch | yaw | roll | posZ | posY | posX | zoom | focus
  | rmsError
  | targetX | targetY | targetZ | targetFlags
  | imageX | imageY | xError | yError
  | cal0 | cal1 | cal2 | cal3 | cal4 | cal5 | cal6 | cal7 | cal8
deriving DecidableEq, Repr

/-- The 16-bit fields of `TX_REQ.payload` (type `u16`). -/
inductive HalfField
  | userDefined | targetNumber | targetNum | eepromAddress | eepromRequestAddress
deriving DecidableEq, Repr

/-- The 8-bit fields of `TX_REQ.payload` (types `u8`, `flags8`, `enum8`, `cmd8`). -/
inductive ByteField
  | pollCommand
  | switchFlags | ledFlags | systemStatus | fwVersion0 | fwVersion1 | fwVersion2
  | targetsSeen | targetsIdentified | targetsUsed
  | param0 | param1 | param2 | param3 | param4 | param5 | param6 | param7 | param8 | param9
  | studioId | targetIndex | diagMode
deriving DecidableEq, Repr

/-- A register or register field the host can read, by name (10_state.md R25, R28, R29; 00_scope.md R6). -/
inductive Reg
  | txVariant | txCommand | txCameraId
  | txWord (f : WordField) | txHalf (f : HalfField) | txByte (f : ByteField) | txDsp | txData
  | txStart | txStat | txBusy | txDone | txErr | txErrInfo | txBuf (off : Nat) | txLen
  | rxBuf (off : Nat) | rxLen | rxStart | rxStat | rxBusy | rxDone | rxErr | rxErrInfo | rxMsg
deriving DecidableEq, Repr

/-- A host WRITE of one register (10_state.md R37), with a value of its type. `txStat` and `rxStat` are
writes of the read-only status registers, which have no effect (R29; log entry 12). -/
inductive RegWrite
  | txVariant (v : BitVec 4)
  | txCommand (v : Byte)
  | txCameraId (v : Byte)
  | txWord (f : WordField) (v : Word)
  | txHalf (f : HalfField) (v : Half)
  | txByte (f : ByteField) (v : Byte)
  | txDsp (v : Dsp)
  | txData (v : Raw16)
  | rxBuf (off : Nat) (bytes : List Byte)
  | rxLen (n : Nat)
  | txStat (v : Byte)
  | rxStat (v : Byte)
deriving DecidableEq, Repr

/-- The signedness select of the PACK24 and UNPACK24 ports (45_deframer.md R356, R357). -/
inductive Signedness
  | signed | unsigned
deriving DecidableEq, Repr

/-- A use of a combinational port (45_deframer.md R350, R351, R355–R357). -/
inductive PortUse
  | narrow (v : Variant)
  | variantIndex
  | checksum (bytes : List Byte)
  | pack24 (sel : Signedness) (w : Word)
  | unpack24 (sel : Signedness) (b0 b1 b2 : Byte)
deriving DecidableEq, Repr

/-- A value the host reads from a register or a port. -/
inductive Value
  | bit (v : Bool)
  | nibble (v : BitVec 4)
  | byte (v : Byte)
  | half (v : Half)
  | word (v : Word)
  | nat (v : Nat)
  | dsp (v : Dsp)
  | raw (v : Raw16)
  | errInfo (v : Option Err)
  | message (v : Option Message)
  | payload (v : Payload)
  | tag (v : Option Nat)
  | bytes (v : List Byte)
  | portError (e : Err)
deriving DecidableEq, Repr

/-- One step of the host (10_state.md R37, R38; 20_memory.md R69; 30_encoding.md R111). -/
inductive HostStep
  | write (w : RegWrite)
  | startTx (v : Bool)
  | startRx (v : Bool)
  | read (r : Reg)
  | port (p : PortUse)
  | wait (r : Reg) (v : Value)
deriving DecidableEq, Repr

/-- Which agent takes a step (10_state.md R20), or the reset event (70_reset_and_hazards.md R420). -/
inductive Turn
  | host | tx | rx | reset
deriving DecidableEq, Repr

end Sys2Proof.Machine
end

