-- ==== Sys2Proof/Machine/Checksum.lean ====
section
/-!
DEFINITION. The checksum generator (41_checksum.md) and the frame it closes (30_encoding.md R90).
-/

namespace Sys2Proof.Machine

/-- One byte of 41_checksum.md R170: a 16-bit subtraction that may underflow, then the reduction mod 256. -/
def checksumStep (acc : BitVec 16) (b : Byte) : BitVec 16 :=
  ((acc - b.zeroExtend 16).extractLsb' 0 8).zeroExtend 16

/-- `checksum(B)` (41_checksum.md R170). -/
def checksum (bytes : List Byte) : Byte :=
  (bytes.foldl checksumStep 0x0040#16).extractLsb' 0 8

/-- `[cmd, cam] ++ P ++ [chk]`, the checksum over every byte before it (30_encoding.md R90, 41_checksum.md R172). -/
def frameOf (command cameraId : Byte) (payload : List Byte) : List Byte :=
  (command :: cameraId :: payload) ++ [checksum (command :: cameraId :: payload)]

end Sys2Proof.Machine
end

