-- ==== Sys2Proof/Machine/Routing.lean ====
section
/-!
DEFINITION. The four read-only tables of the block (10_state.md R36): command codes (30_encoding.md R95, R96),
routing (43_commands.md R260), payload lengths (R94) and framing compatibility (44_framer.md R302); and the
variant tags (R93).
-/

namespace Sys2Proof.Machine

/-- The fifteen commands in the order of the rows of 30_encoding.md R95. -/
def Command.all : List Command :=
  [.mode00, .mode01, .mode02, .mode03, .positionPoll, .systemStatus, .systemParams, .firstTarget, .nextTarget,
   .firstImage, .nextImage, .eepromData, .requestEeprom, .cameraCalibration, .diagnosticMode]

/-- `to_byte` (30_encoding.md R95, R96). -/
def Command.toByte : Command → Byte
  | .mode00 => 0x00#8
  | .mode01 => 0x01#8
  | .mode02 => 0x02#8
  | .mode03 => 0x03#8
  | .positionPoll => 0xD1#8
  | .systemStatus => 0xD2#8
  | .systemParams => 0xD3#8
  | .firstTarget => 0xD4#8
  | .nextTarget => 0xD5#8
  | .firstImage => 0xD6#8
  | .nextImage => 0xD7#8
  | .eepromData => 0xD8#8
  | .requestEeprom => 0xD9#8
  | .cameraCalibration => 0xDA#8
  | .diagnosticMode => 0xDB#8

/-- `from_byte` (30_encoding.md R96): `none` where the spec raises UnknownCommand. -/
def Command.fromByte (b : Byte) : Option Command :=
  Command.all.find? (fun c => c.toByte == b)

/-- Membership in `COMMAND_CODES` (30_encoding.md R96). -/
def isCommandCode (b : Byte) : Bool := (Command.fromByte b).isSome

/-- `route` (43_commands.md R260, R261). -/
def route : Command → Variant
  | .mode00 => .poll
  | .mode01 => .poll
  | .mode02 => .poll
  | .mode03 => .poll
  | .positionPoll => .positionPoll
  | .systemStatus => .systemStatus
  | .systemParams => .systemControl
  | .firstTarget => .targetData
  | .nextTarget => .targetData
  | .firstImage => .imageData
  | .nextImage => .imageData
  | .eepromData => .eepromData
  | .requestEeprom => .eepromDataRequest
  | .cameraCalibration => .cameraCalibration
  | .diagnosticMode => .diagnosticMode

/-- `L(variant)`, the payload length in bytes (30_encoding.md R94). -/
def Variant.payloadLen : Variant → Nat
  | .poll => 1
  | .positionPoll => 26
  | .systemStatus => 13
  | .systemControl => 10
  | .targetData => 15
  | .imageData => 15
  | .eepromData => 18
  | .eepromDataRequest => 2
  | .cameraCalibration => 27
  | .diagnosticMode => 1

/-- `variant_index()` (30_encoding.md R93, 10_state.md R35). -/
def Variant.tag : Variant → Nat
  | .poll => 0
  | .positionPoll => 1
  | .systemStatus => 2
  | .systemControl => 3
  | .targetData => 4
  | .imageData => 5
  | .eepromData => 6
  | .eepromDataRequest => 7
  | .cameraCalibration => 8
  | .diagnosticMode => 9

/-- The variants in tag order. -/
def Variant.all : List Variant :=
  [.poll, .positionPoll, .systemStatus, .systemControl, .targetData, .imageData, .eepromData, .eepromDataRequest,
   .cameraCalibration, .diagnosticMode]

/-- The variant a value of `TX_REQ.variant` names; 10..15 name none (44_framer.md R301). -/
def Variant.ofTag (t : BitVec 4) : Option Variant :=
  Variant.all.find? (fun v => v.tag == t.toNat)

/-- `allowed(V)`: the commands FRAME accepts with a payload of variant V (44_framer.md R302). -/
def allowed : Variant → List Command
  | .poll => [.mode00, .mode01, .mode02, .mode03, .systemStatus]
  | .positionPoll => [.positionPoll]
  | .systemStatus => [.systemStatus]
  | .systemControl => [.systemParams]
  | .targetData => [.firstTarget, .nextTarget]
  | .imageData => [.firstImage, .nextImage]
  | .eepromData => [.eepromData]
  | .eepromDataRequest => [.requestEeprom]
  | .cameraCalibration => [.cameraCalibration]
  | .diagnosticMode => [.diagnosticMode]

/-- Does the byte hold a command of `allowed(V)`? A byte that is no command is in no allowed set (44_framer.md R302). -/
def isAllowed (v : Variant) (c : Byte) : Bool :=
  (allowed v).any (fun k => k.toByte == c)

/-- The row of a command in 30_encoding.md R95, counted from 0. -/
def Command.row (c : Command) : Nat := Command.all.findIdx (fun k => decide (k = c))

/-- `allowed(V)` as the 15-bit mask of 60_exceptions.md R383, bit i being row i of 30_encoding.md R95
(DEDUCED: the rule gives the order, not the end it starts from; unsafe; log entry 7). -/
def allowedMask (v : Variant) : BitVec 15 :=
  (allowed v).foldl (fun m c => m ||| (1#15 <<< c.row)) 0#15

/-- The field ids of 60_exceptions.md R384. -/
def FieldId.id : FieldId → Nat
  | .pollCommand => 1
  | .sysStatusStatus => 2
  | .sysStatusDsp => 3
  | .diagMode => 4

/-- The error codes of 60_exceptions.md R381. -/
def Err.code : Err → BitVec 4
  | .frameTooShort => 1#4
  | .checksumMismatch => 2#4
  | .unknownCommand _ => 3#4
  | .lengthMismatch _ _ => 4#4
  | .invalidEnumValue _ _ => 5#4
  | .rangeError _ _ _ => 6#4
  | .wrongVariant _ _ => 7#4
  | .invalidCommand _ _ => 8#4

/-- The variant of a payload (10_state.md R23, R35). -/
def Payload.variant : Payload → Variant
  | .poll _ => .poll
  | .positionPoll _ => .positionPoll
  | .systemStatus _ => .systemStatus
  | .systemControl _ => .systemControl
  | .targetData _ => .targetData
  | .imageData _ => .imageData
  | .eepromData _ => .eepromData
  | .eepromDataRequest _ => .eepromDataRequest
  | .cameraCalibration _ => .cameraCalibration
  | .diagnosticMode _ => .diagnosticMode

/-- `TX_REQ.payload.t`, the record FRAME reads (10_state.md R25, 44_framer.md R300). -/
def TxRecords.select (r : TxRecords) : Variant → Payload
  | .poll => .poll r.poll
  | .positionPoll => .positionPoll r.positionPoll
  | .systemStatus => .systemStatus r.systemStatus
  | .systemControl => .systemControl r.systemControl
  | .targetData => .targetData r.targetData
  | .imageData => .imageData r.imageData
  | .eepromData => .eepromData r.eepromData
  | .eepromDataRequest => .eepromDataRequest r.eepromDataRequest
  | .cameraCalibration => .cameraCalibration r.cameraCalibration
  | .diagnosticMode => .diagnosticMode r.diagnosticMode

end Sys2Proof.Machine
end

