-- ==== Sys2Proof/Syntax.lean ====
section
/-!
DEFINITION. The instructions of the block: one constructor per row of spec/opcode_table.json, which is the
command code table (30_encoding.md R95). The payload type of a constructor is the variant its command routes
to (43_commands.md R260). The checksum is no operand: it is "derived, not independently settable"
(10_state.md R24; log entry 2).
-/

namespace Sys2Proof

open Sys2Proof.Machine

inductive Instr
  | mode00 (f : Form Poll)
  | mode01 (f : Form Poll)
  | mode02 (f : Form Poll)
  | mode03 (f : Form Poll)
  | positionPoll (f : Form PositionPoll)
  | systemStatus (f : Form SystemStatus)
  | systemParams (f : Form SystemControl)
  | firstTarget (f : Form TargetData)
  | nextTarget (f : Form TargetData)
  | firstImage (f : Form ImageData)
  | nextImage (f : Form ImageData)
  | eepromData (f : Form EepromData)
  | requestEeprom (f : Form EepromDataRequest)
  | cameraCalibration (f : Form CameraCalibration)
  | diagnosticMode (f : Form DiagnosticMode)
deriving DecidableEq, Repr

end Sys2Proof
end

