-- ==== Sys2Proof/Machine/Operands.lean ====
section
/-!
DEFINITION. The operands: the field packer (40_field_packer.md), the fields of each payload variant in table
order (30_encoding.md R100–R109, R112), and with them the encode and decode rules of 42_payloads.md.
Encode is the fields' packing in table order, stopping at the first that raises (R192). Decode reads every
field at its payload offset; the member checks of `unpack_enum` and `unpack_dsp` follow in table order.
-/

namespace Sys2Proof.Machine

open Sys2Proof.Config (Build)

/-! ### The 24-bit field -/

/-- `S24_MIN` (40_field_packer.md R140). -/
abbrev s24Min : Int := -8388608
/-- `S24_MAX` (R140). -/
abbrev s24Max : Int := 8388607
/-- `U24_MAX` (R140); `U24_MIN` is 0. -/
abbrev u24Max : Nat := 16777215

/-- The word is in the signed range (R140). -/
def s24InRange (w : Word) : Bool := decide (s24Min ≤ w.toInt) && decide (w.toInt ≤ s24Max)

/-- The word is in the unsigned range (R140). -/
def u24InRange (w : Word) : Bool := decide (w.toNat ≤ u24Max)

/-- `[w[23:16], w[15:8], w[7:0]]`: big-endian, the top byte is never emitted (R141, R142). -/
def bytes24 (w : Word) : List Byte :=
  [w.extractLsb' 16 8, w.extractLsb' 8 8, w.extractLsb' 0 8]

/-- `pack_s24` (40_field_packer.md R141, R146). -/
def packS24 (w : Word) : Except Err (List Byte) :=
  if s24InRange w then .ok (bytes24 w) else .error (.rangeError w.toInt s24Min s24Max)

/-- `pack_u24` (40_field_packer.md R142, R146). -/
def packU24 (w : Word) : Except Err (List Byte) :=
  if u24InRange w then .ok (bytes24 w) else .error (.rangeError w.toNat 0 u24Max)

/-- `unpack_s24` (40_field_packer.md R143): bit 23 copied into bits 31..24. -/
def unpackS24 (b0 b1 b2 : Byte) : Word := (b0 ++ b1 ++ b2).signExtend 32

/-- `unpack_u24` (40_field_packer.md R144). -/
def unpackU24 (b0 b1 b2 : Byte) : Word := (b0 ++ b1 ++ b2).zeroExtend 32

/-! ### 16-bit, 8-bit, enumeration, dsp and raw fields -/

/-- `pack_u16` (40_field_packer.md R147). -/
def packU16 (h : Half) : List Byte := [h.extractLsb' 8 8, h.extractLsb' 0 8]

/-- `unpack_u16` (40_field_packer.md R147). -/
def unpackU16 (b0 b1 : Byte) : Half := b0 ++ b1

/-- The member set of each field id (60_exceptions.md R384). -/
def isMember (b : Build) : FieldId → Byte → Bool
  | .pollCommand, v => isCommandCode v
  | .sysStatusStatus, v => b.isSysStatus v
  | .sysStatusDsp, v => b.isDspError v
  | .diagMode, v => b.isDiagMode v

/-- The member check of `pack_enum` and `unpack_enum` (40_field_packer.md R149), which are one check. -/
def checkEnum (b : Build) (fid : FieldId) (v : Byte) : Except Err Unit :=
  if isMember b fid v then .ok () else .error (.invalidEnumValue fid v)

/-- `trunc_8` of a `dsp` value (40_field_packer.md R150): a count is 0x00..0x7F, a code is itself. -/
def dspByte : Dsp → Byte
  | .iterations n => n.zeroExtend 8
  | .error c => c

/-- The split of `unpack_dsp` by sign (40_field_packer.md R150); the member check is `checkDsp`. -/
def readDsp (b : Byte) : Dsp :=
  if b.msb then .error b else .iterations (b.setWidth 7)

/-- The member check of `pack_dsp` and `unpack_dsp` (40_field_packer.md R150). -/
def checkDsp (b : Build) : Dsp → Except Err Unit
  | .iterations _ => .ok ()
  | .error c => checkEnum b .sysStatusDsp c

/-- `pack_raw` (40_field_packer.md R151). -/
def Raw16.toBytes (r : Raw16) : List Byte :=
  [r.d0, r.d1, r.d2, r.d3, r.d4, r.d5, r.d6, r.d7, r.d8, r.d9, r.d10, r.d11, r.d12, r.d13, r.d14, r.d15]

/-! ### Fields -/

/-- A field value with its type (10_state.md R23). An enumeration field carries its field id, which names its
member set; a `cmd8` field is the one with `.pollCommand`. -/
inductive Field
  | s24 (w : Word)
  | u24 (w : Word)
  | u16 (h : Half)
  | u8 (v : Byte)
  | flags8 (v : Byte)
  | enum8 (fid : FieldId) (v : Byte)
  | dsp (d : Dsp)
  | raw (r : Raw16)
deriving DecidableEq, Repr

/-- The wire bytes of a field, big-endian (20_memory.md R64, R67). -/
def Field.bytes : Field → List Byte
  | .s24 w => bytes24 w
  | .u24 w => bytes24 w
  | .u16 h => packU16 h
  | .u8 v => [v]
  | .flags8 v => [v]
  | .enum8 _ v => [v]
  | .dsp d => [dspByte d]
  | .raw r => r.toBytes

/-- The pack rule of a field: its check, then its bytes (40_field_packer.md R141, R142, R147–R151). -/
def Field.pack (b : Build) : Field → Except Err (List Byte)
  | .s24 w => packS24 w
  | .u24 w => packU24 w
  | .u16 h => .ok (packU16 h)
  | .u8 v => .ok [v]
  | .flags8 v => .ok [v]
  | .enum8 fid v => (checkEnum b fid v).map (fun _ => [v])
  | .dsp d => (checkDsp b d).map (fun _ => [dspByte d])
  | .raw r => .ok r.toBytes

/-- The check the unpack rule of a field makes: only `unpack_enum` and `unpack_dsp` can raise
(40_field_packer.md R143, R144, R147–R151). -/
def Field.checkUnpacked (b : Build) : Field → Except Err Unit
  | .s24 _ => .ok ()
  | .u24 _ => .ok ()
  | .u16 _ => .ok ()
  | .u8 _ => .ok ()
  | .flags8 _ => .ok ()
  | .enum8 fid v => checkEnum b fid v
  | .dsp d => checkDsp b d
  | .raw _ => .ok ()

/-- The field has a wire encoding that reads back as it: a 24-bit word in range, a negative dsp error code. -/
def Field.encodable : Field → Bool
  | .s24 w => s24InRange w
  | .u24 w => u24InRange w
  | .u16 _ => true
  | .u8 _ => true
  | .flags8 _ => true
  | .enum8 _ _ => true
  | .dsp (.iterations _) => true
  | .dsp (.error c) => c.msb
  | .raw _ => true

/-- The field is legal (10_state.md R23). -/
def Field.legal (b : Build) : Field → Bool
  | .s24 w => s24InRange w
  | .u24 w => u24InRange w
  | .u16 _ => true
  | .u8 _ => true
  | .flags8 _ => true
  | .enum8 fid v => isMember b fid v
  | .dsp (.iterations _) => true
  | .dsp (.error c) => b.isDspError c
  | .raw _ => true

/-! ### The fields of each variant, in table order -/

/-- The fields of a payload by name, in the row order of 30_encoding.md R100–R109: the order of encoding, of the
checks (42_payloads.md R192) and of display (R112). -/
def Payload.fields : Payload → List (String × Field)
  -- 42_payloads.md R200, R201
  | .poll p => [("command", .enum8 .pollCommand p.command)]
  -- R202, R203
  | .positionPoll p =>
    [("pitch", .s24 p.pitch), ("yaw", .s24 p.yaw), ("roll", .s24 p.roll),
     ("pos_z", .s24 p.posZ), ("pos_y", .s24 p.posY), ("pos_x", .s24 p.posX),
     ("zoom", .u24 p.zoom), ("focus", .u24 p.focus), ("user_defined", .u16 p.userDefined)]
  -- R204, R205
  | .systemStatus p =>
    [("switch_flags", .flags8 p.switchFlags), ("led_flags", .flags8 p.ledFlags),
     ("system_status", .enum8 .sysStatusStatus p.systemStatus),
     ("fw_version_0", .u8 p.fwVersion0), ("fw_version_1", .u8 p.fwVersion1), ("fw_version_2", .u8 p.fwVersion2),
     ("dsp_status", .dsp p.dspStatus),
     ("targets_seen", .u8 p.targetsSeen), ("targets_identified", .u8 p.targetsIdentified),
     ("targets_used", .u8 p.targetsUsed), ("rms_error", .u24 p.rmsError)]
  -- R206, R207
  | .systemControl p =>
    [("param_0", .u8 p.param0), ("param_1", .u8 p.param1), ("param_2", .u8 p.param2), ("param_3", .u8 p.param3),
     ("param_4", .u8 p.param4), ("param_5", .u8 p.param5), ("param_6", .u8 p.param6), ("param_7", .u8 p.param7),
     ("param_8", .u8 p.param8), ("param_9", .u8 p.param9)]
  -- R208, R209
  | .targetData p =>
    [("studio_id", .u8 p.studioId), ("target_number", .u16 p.targetNumber),
     ("target_x", .s24 p.targetX), ("target_y", .s24 p.targetY), ("target_z", .s24 p.targetZ),
     ("target_flags", .s24 p.targetFlags)]
  -- R210, R211
  | .imageData p =>
    [("target_index", .u8 p.targetIndex), ("target_num", .u16 p.targetNum),
     ("target_x", .s24 p.targetX), ("target_y", .s24 p.targetY),
     ("x_error", .s24 p.xError), ("y_error", .s24 p.yError)]
  -- R212, R213
  | .eepromData p => [("address", .u16 p.address), ("data", .raw p.data)]
  -- R214, R215
  | .eepromDataRequest p => [("address", .u16 p.address)]
  -- R216, R217
  | .cameraCalibration p =>
    [("cal_0", .s24 p.cal0), ("cal_1", .s24 p.cal1), ("cal_2", .s24 p.cal2), ("cal_3", .s24 p.cal3),
     ("cal_4", .s24 p.cal4), ("cal_5", .s24 p.cal5), ("cal_6", .s24 p.cal6), ("cal_7", .s24 p.cal7),
     ("cal_8", .s24 p.cal8)]
  -- R218, R219
  | .diagnosticMode p => [("mode", .enum8 .diagMode p.mode)]

/-- Every field is legal (10_state.md R23). -/
def Payload.legal (b : Build) (p : Payload) : Bool := p.fields.all (fun f => f.2.legal b)

/-- Every field is encodable. -/
def Payload.encodable (p : Payload) : Bool := p.fields.all (fun f => f.2.encodable)

/-- The payload's wire bytes, without any check. -/
def Payload.bytes (p : Payload) : List Byte := p.fields.flatMap (fun f => f.2.bytes)

/-- Concatenates results in order; the first that raises is the result (42_payloads.md R192). -/
def joinFields : List (Except Err (List Byte)) → Except Err (List Byte)
  | [] => .ok []
  | .error e :: _ => .error e
  | .ok x :: rest => (joinFields rest).map (x ++ ·)

/-- `encode_payload` (42_payloads.md R191–R193, R200–R218). -/
def encodePayload (b : Build) (p : Payload) : Except Err (List Byte) :=
  joinFields (p.fields.map (fun f => f.2.pack b))

/-- The first check that raises, in order. -/
def firstRaised : List (Except Err Unit) → Option Err
  | [] => none
  | .error e :: _ => some e
  | .ok _ :: rest => firstRaised rest

/-- The error the member checks of a decode rule raise, if any (42_payloads.md R192, R201–R219). -/
def unpackError (b : Build) (p : Payload) : Option Err :=
  firstRaised (p.fields.map (fun f => f.2.checkUnpacked b))

/-! ### Reading a payload of the right length -/

/-- `B[i]`, for an offset inside the slice (00_scope.md R9). -/
def byteAt (B : List Byte) (i : Nat) : Byte := B.getD i 0#8

def s24At (B : List Byte) (i : Nat) : Word := unpackS24 (byteAt B i) (byteAt B (i + 1)) (byteAt B (i + 2))

def u24At (B : List Byte) (i : Nat) : Word := unpackU24 (byteAt B i) (byteAt B (i + 1)) (byteAt B (i + 2))

def u16At (B : List Byte) (i : Nat) : Half := unpackU16 (byteAt B i) (byteAt B (i + 1))

/-- 42_payloads.md R201. -/
def readPoll (B : List Byte) : Poll := { command := byteAt B 0 }

/-- 42_payloads.md R203. -/
def readPositionPoll (B : List Byte) : PositionPoll :=
  { pitch := s24At B 0, yaw := s24At B 3, roll := s24At B 6,
    posZ := s24At B 9, posY := s24At B 12, posX := s24At B 15,
    zoom := u24At B 18, focus := u24At B 21, userDefined := u16At B 24 }

/-- 42_payloads.md R205. -/
def readSystemStatus (B : List Byte) : SystemStatus :=
  { switchFlags := byteAt B 0, ledFlags := byteAt B 1, systemStatus := byteAt B 2,
    fwVersion0 := byteAt B 3, fwVersion1 := byteAt B 4, fwVersion2 := byteAt B 5,
    dspStatus := readDsp (byteAt B 6),
    targetsSeen := byteAt B 7, targetsIdentified := byteAt B 8, targetsUsed := byteAt B 9,
    rmsError := u24At B 10 }

/-- 42_payloads.md R207. -/
def readSystemControl (B : List Byte) : SystemControl :=
  { param0 := byteAt B 0, param1 := byteAt B 1, param2 := byteAt B 2, param3 := byteAt B 3, param4 := byteAt B 4,
    param5 := byteAt B 5, param6 := byteAt B 6, param7 := byteAt B 7, param8 := byteAt B 8, param9 := byteAt B 9 }

/-- 42_payloads.md R209. -/
def readTargetData (B : List Byte) : TargetData :=
  { studioId := byteAt B 0, targetNumber := u16At B 1,
    targetX := s24At B 3, targetY := s24At B 6, targetZ := s24At B 9, targetFlags := s24At B 12 }

/-- 42_payloads.md R211. -/
def readImageData (B : List Byte) : ImageData :=
  { targetIndex := byteAt B 0, targetNum := u16At B 1,
    targetX := s24At B 3, targetY := s24At B 6, xError := s24At B 9, yError := s24At B 12 }

/-- 42_payloads.md R213. -/
def readEepromData (B : List Byte) : EepromData :=
  { address := u16At B 0,
    data := { d0 := byteAt B 2, d1 := byteAt B 3, d2 := byteAt B 4, d3 := byteAt B 5,
              d4 := byteAt B 6, d5 := byteAt B 7, d6 := byteAt B 8, d7 := byteAt B 9,
              d8 := byteAt B 10, d9 := byteAt B 11, d10 := byteAt B 12, d11 := byteAt B 13,
              d12 := byteAt B 14, d13 := byteAt B 15, d14 := byteAt B 16, d15 := byteAt B 17 } }

/-- 42_payloads.md R215. -/
def readEepromDataRequest (B : List Byte) : EepromDataRequest := { address := u16At B 0 }

/-- 42_payloads.md R217. -/
def readCameraCalibration (B : List Byte) : CameraCalibration :=
  { cal0 := s24At B 0, cal1 := s24At B 3, cal2 := s24At B 6, cal3 := s24At B 9, cal4 := s24At B 12,
    cal5 := s24At B 15, cal6 := s24At B 18, cal7 := s24At B 21, cal8 := s24At B 24 }

/-- 42_payloads.md R219. -/
def readDiagnosticMode (B : List Byte) : DiagnosticMode := { mode := byteAt B 0 }

/-- The record a decode rule reads from a slice of its length, by variant (42_payloads.md R193). -/
def readPayload (t : Variant) (B : List Byte) : Payload :=
  match t with
  | .poll => .poll (readPoll B)
  | .positionPoll => .positionPoll (readPositionPoll B)
  | .systemStatus => .systemStatus (readSystemStatus B)
  | .systemControl => .systemControl (readSystemControl B)
  | .targetData => .targetData (readTargetData B)
  | .imageData => .imageData (readImageData B)
  | .eepromData => .eepromData (readEepromData B)
  | .eepromDataRequest => .eepromDataRequest (readEepromDataRequest B)
  | .cameraCalibration => .cameraCalibration (readCameraCalibration B)
  | .diagnosticMode => .diagnosticMode (readDiagnosticMode B)

/-! ### The operands of an instruction -/

/-- The operands a form carries: camera id and payload of a received frame; none for a request. -/
def Form.received {α : Type} (wrap : α → Payload) : Form α → Option (Byte × Payload)
  | .deframe cam p => some (cam, wrap p)
  | .frame => none

/-- The command of an instruction. -/
def command : Instr → Command
  | .mode00 _ => .mode00
  | .mode01 _ => .mode01
  | .mode02 _ => .mode02
  | .mode03 _ => .mode03
  | .positionPoll _ => .positionPoll
  | .systemStatus _ => .systemStatus
  | .systemParams _ => .systemParams
  | .firstTarget _ => .firstTarget
  | .nextTarget _ => .nextTarget
  | .firstImage _ => .firstImage
  | .nextImage _ => .nextImage
  | .eepromData _ => .eepromData
  | .requestEeprom _ => .requestEeprom
  | .cameraCalibration _ => .cameraCalibration
  | .diagnosticMode _ => .diagnosticMode

/-- The operands of an instruction: some for a received frame, none for a request. -/
def receivedOperands : Instr → Option (Byte × Payload)
  | .mode00 f => f.received .poll
  | .mode01 f => f.received .poll
  | .mode02 f => f.received .poll
  | .mode03 f => f.received .poll
  | .positionPoll f => f.received .positionPoll
  | .systemStatus f => f.received .systemStatus
  | .systemParams f => f.received .systemControl
  | .firstTarget f => f.received .targetData
  | .nextTarget f => f.received .targetData
  | .firstImage f => f.received .imageData
  | .nextImage f => f.received .imageData
  | .eepromData f => f.received .eepromData
  | .requestEeprom f => f.received .eepromDataRequest
  | .cameraCalibration f => f.received .cameraCalibration
  | .diagnosticMode f => f.received .diagnosticMode

end Sys2Proof.Machine
end

