-- ==== Sys2Proof/WellFormed.lean ====
section
/-!
DEFINITION. Which instructions have an encoding: in a received frame every 24-bit field is in its range
(40_field_packer.md R140) and a dsp error code is negative (40_field_packer.md R150); a request has no operand
to check. Membership of enumeration codes is not a matter of encoding: a frame with a code that is no member
is decoded, and executing it reports InvalidEnumValue (42_payloads.md R201–R219; log entry 15).
-/

namespace Sys2Proof

open Sys2Proof.Machine

def Instr.wellFormed (i : Instr) : Bool :=
  match receivedOperands i with
  | some (_, p) => p.encodable
  | none => true

end Sys2Proof
end

