-- ==== Sys2Proof/Decode.lean ====
section
/-!
DEFINITION. Decoding what a channel fetched, total on any bytes; a rejection is the error the spec gives it
(45_deframer.md R340, steps 1 to 4 up to the payload's length). Then the encoder, and the two functions that
read an instruction from the bits of spec/opcode_table.json.
-/

namespace Sys2Proof

open Sys2Proof.Machine

/-- The instruction of a received frame with command `c`, camera id `cam` and payload slice `B`
(43_commands.md R260). -/
def receivedInstr (c : Command) (cam : Byte) (B : List Byte) : Instr :=
  match c with
  | .mode00 => .mode00 (.deframe cam (readPoll B))
  | .mode01 => .mode01 (.deframe cam (readPoll B))
  | .mode02 => .mode02 (.deframe cam (readPoll B))
  | .mode03 => .mode03 (.deframe cam (readPoll B))
  | .positionPoll => .positionPoll (.deframe cam (readPositionPoll B))
  | .systemStatus => .systemStatus (.deframe cam (readSystemStatus B))
  | .systemParams => .systemParams (.deframe cam (readSystemControl B))
  | .firstTarget => .firstTarget (.deframe cam (readTargetData B))
  | .nextTarget => .nextTarget (.deframe cam (readTargetData B))
  | .firstImage => .firstImage (.deframe cam (readImageData B))
  | .nextImage => .nextImage (.deframe cam (readImageData B))
  | .eepromData => .eepromData (.deframe cam (readEepromData B))
  | .requestEeprom => .requestEeprom (.deframe cam (readEepromDataRequest B))
  | .cameraCalibration => .cameraCalibration (.deframe cam (readCameraCalibration B))
  | .diagnosticMode => .diagnosticMode (.deframe cam (readDiagnosticMode B))

/-- The instruction of a framing request whose command register holds `c`. -/
def requestInstr : Command → Instr
  | .mode00 => .mode00 .frame
  | .mode01 => .mode01 .frame
  | .mode02 => .mode02 .frame
  | .mode03 => .mode03 .frame
  | .positionPoll => .positionPoll .frame
  | .systemStatus => .systemStatus .frame
  | .systemParams => .systemParams .frame
  | .firstTarget => .firstTarget .frame
  | .nextTarget => .nextTarget .frame
  | .firstImage => .firstImage .frame
  | .nextImage => .nextImage .frame
  | .eepromData => .eepromData .frame
  | .requestEeprom => .requestEeprom .frame
  | .cameraCalibration => .cameraCalibration .frame
  | .diagnosticMode => .diagnosticMode .frame

/-- The payload slice `F[2..n-1]` (45_deframer.md R340). -/
def payloadSlice (F : List Byte) : List Byte := (F.take (F.length - 1)).drop 2

/-- The checks of 45_deframer.md R340 on a buffer, in its order, then the instruction of the frame. -/
def decodeFrame (F : List Byte) : Except Err Instr :=
  if F.length < 4 then .error .frameTooShort
  else if checksum (F.take (F.length - 1)) ≠ byteAt F (F.length - 1) then .error .checksumMismatch
  else
    match Command.fromByte (byteAt F 0) with
    | none => .error (.unknownCommand (byteAt F 0))
    | some c =>
      if (payloadSlice F).length ≠ (route c).payloadLen then
        .error (.lengthMismatch (route c).payloadLen (payloadSlice F).length)
      else .ok (receivedInstr c (byteAt F 1) (payloadSlice F))

/-- Decoding of what a channel fetched. -/
def decode : Fetched → Except Err Instr
  | .rx F => decodeFrame F
  | .tx b =>
    match Command.fromByte b with
    | some c => .ok (requestInstr c)
    | none => .error (.unknownCommand b)

/-- Encoding: a received frame is its bytes (30_encoding.md R90), a request is its command byte (R95). -/
def encode (i : Instr) : Fetched :=
  match receivedOperands i with
  | some (cam, p) => .rx (frameOf (command i).toByte cam p.bytes)
  | none => .tx (command i).toByte

/-! ### The bits of spec/opcode_table.json -/

/-- The first `n` bytes of `w`, byte k being bits 8k+7..8k. -/
def bytesOfNat : Nat → Nat → List Byte
  | 0, _ => []
  | n + 1, w => BitVec.ofNat 8 w :: bytesOfNat n (w / 256)

/-- The bytes of the instruction whose `nbits` bits are `w`, as they lie in a buffer: the bits above `nbits`
are 0 up to the end of the payload, then comes the frame's checksum, which is derived from the bytes before it
(10_state.md R24; log entry 2). Where `nbits` reaches the checksum byte, the bytes are as given. A first byte
that is no command is followed by zeros up to the longest frame. -/
def tableFrame (nbits w : Nat) : List Byte :=
  let n := (nbits + 7) / 8
  let bits := w % 2 ^ nbits
  match Command.fromByte (BitVec.ofNat 8 bits) with
  | none => bytesOfNat (max n 30) bits
  | some c =>
    let len := (route c).payloadLen + 3
    if len ≤ n then bytesOfNat n bits
    else
      let body := bytesOfNat (len - 1) bits
      body ++ [checksum body]

/-- The instruction the decoder reads from the bits of a row of spec/opcode_table.json. -/
def decodeTableWord (nbits w : Nat) : Option Instr :=
  match decode (.rx (tableFrame nbits w)) with
  | .ok i => some i
  | .error _ => none

end Sys2Proof
end

