-- ==== Sys2Proof/Machine/State.lean ====
section
/-!
DEFINITION. The state of the block: the registers of the two channels (10_state.md R25, R28), the constants of
the build (R36), and the model's own fields that hold the agents outside the block (R20; log entries 3 and 16).
`TX_CTRL.START` and `RX_CTRL.START` store nothing: they read as 0 and writing 1 is the START step (R38; log entry 14).
-/

namespace Sys2Proof.Machine

open Sys2Proof.Config

/-- The TX channel's registers (10_state.md R25). -/
structure TxChannel where
  /-- `TX_REQ.variant` -/
  variant : BitVec 4
  /-- `TX_REQ.command` -/
  command : Byte
  /-- `TX_REQ.camera_id` -/
  cameraId : Byte
  /-- `TX_REQ.payload` -/
  records : TxRecords
  /-- `TX_STAT` (R29) -/
  stat : Byte
  /-- `TX_ERRINFO` -/
  errInfo : Option Err
  /-- `TX_BUF` -/
  buf : Memory
  /-- `TX_LEN` -/
  len : Nat
deriving DecidableEq, Repr

/-- The RX channel's registers (10_state.md R28). -/
structure RxChannel where
  /-- `RX_BUF` -/
  buf : Memory
  /-- `RX_LEN` -/
  len : Nat
  /-- `RX_STAT` (R29) -/
  stat : Byte
  /-- `RX_ERRINFO` -/
  errInfo : Option Err
  /-- `RX_MSG` -/
  msg : Option Message
deriving DecidableEq, Repr

/-- The whole state. -/
structure State where
  /-- The constants of the build (10_state.md R36, 00_scope.md R6); no step changes them. -/
  build : Build
  /-- The TX channel. -/
  tx : TxChannel
  /-- The RX channel. -/
  rx : RxChannel
  /-- The model's own: what the host will still do, in order. -/
  host : List HostStep
  /-- The model's own: which agent takes which of the coming steps. -/
  turns : List Turn
  /-- The model's own: what the host has read, newest first. -/
  results : List Value
deriving DecidableEq, Repr

/-- Why the machine stops with a fault. Both are the "model that reaches an access outside `0..cap` has a bug
and faults" of 20_memory.md R62; both are safe, and no reachable state raises either. -/
inductive Fault
  /-- FRAME's MemWrite to `TX_BUF` would leave the buffer. Raised by the frame form of an instruction. Safe. -/
  | txBufferBounds
  /-- DEFRAME's MemRead of `RX_BUF` would leave the buffer. Raised by the RX turn. Safe. -/
  | rxBufferBounds
deriving DecidableEq, Repr

/-- Why a step does not exist. All are safe: they leave claims about hosts that do so unprovable. -/
inductive Refusal
  /-- An instruction without a meaning, by its mnemonic. Raised by no arm of this model. Safe. -/
  | notModelled (mnemonic : String)
  /-- A host write of a request register while its channel is BUSY (10_state.md R41). Raised by the host's turn. Safe. -/
  | writeWhileBusy
  /-- A write of START, of 1 or of 0, while its channel is BUSY (70_reset_and_hazards.md R430, 10_state.md R41).
  Raised by the host's turn. Safe. -/
  | startWhileBusy
  /-- A START with a variant tag 10..15 (44_framer.md R301), or the execution of such a request, which no run
  reaches. Raised by the host's turn and by the frame form of an instruction. Safe. -/
  | noSuchVariant
  /-- `RX_LEN` written above `RX_MAX_LEN` (70_reset_and_hazards.md R433). Raised by the host's turn. Safe. -/
  | rxLenTooLarge
  /-- A host access to a byte outside `TX_BUF` or `RX_BUF` (10_state.md R25, R28). Raised by the host's turn. Safe. -/
  | noSuchByte
  /-- A CHECKSUM port input longer than `CHK_MAX_LEN` (45_deframer.md R355). Raised by the host's turn. Safe. -/
  | checksumInputTooLong
deriving DecidableEq, Repr

/-- The answer of a step. -/
abbrev Answer := Host.Outcome State Fault Refusal

/-! ### Reset (70_reset_and_hazards.md R420) -/

def Raw16.zero : Raw16 :=
  { d0 := 0#8, d1 := 0#8, d2 := 0#8, d3 := 0#8, d4 := 0#8, d5 := 0#8, d6 := 0#8, d7 := 0#8,
    d8 := 0#8, d9 := 0#8, d10 := 0#8, d11 := 0#8, d12 := 0#8, d13 := 0#8, d14 := 0#8, d15 := 0#8 }

/-- `TX_REQ.payload` at reset: every field 0, `dsp` fields `Iterations(0)`, raw bytes 0x00. -/
def TxRecords.reset : TxRecords :=
  { poll := { command := 0#8 }
    positionPoll :=
      { pitch := 0#32, yaw := 0#32, roll := 0#32, posZ := 0#32, posY := 0#32, posX := 0#32,
        zoom := 0#32, focus := 0#32, userDefined := 0#16 }
    systemStatus :=
      { switchFlags := 0#8, ledFlags := 0#8, systemStatus := 0#8,
        fwVersion0 := 0#8, fwVersion1 := 0#8, fwVersion2 := 0#8, dspStatus := .iterations 0#7,
        targetsSeen := 0#8, targetsIdentified := 0#8, targetsUsed := 0#8, rmsError := 0#32 }
    systemControl :=
      { param0 := 0#8, param1 := 0#8, param2 := 0#8, param3 := 0#8, param4 := 0#8,
        param5 := 0#8, param6 := 0#8, param7 := 0#8, param8 := 0#8, param9 := 0#8 }
    targetData :=
      { studioId := 0#8, targetNumber := 0#16, targetX := 0#32, targetY := 0#32, targetZ := 0#32,
        targetFlags := 0#32 }
    imageData :=
      { targetIndex := 0#8, targetNum := 0#16, targetX := 0#32, targetY := 0#32, xError := 0#32, yError := 0#32 }
    eepromData := { address := 0#16, data := Raw16.zero }
    eepromDataRequest := { address := 0#16 }
    cameraCalibration :=
      { cal0 := 0#32, cal1 := 0#32, cal2 := 0#32, cal3 := 0#32, cal4 := 0#32, cal5 := 0#32, cal6 := 0#32,
        cal7 := 0#32, cal8 := 0#32 }
    diagnosticMode := { mode := 0#8 } }

def TxChannel.reset : TxChannel :=
  { variant := 0#4, command := 0x00#8, cameraId := 0x00#8, records := TxRecords.reset,
    stat := 0x00#8, errInfo := none, buf := [], len := 0 }

def RxChannel.reset : RxChannel :=
  { buf := [], len := 0, stat := 0x00#8, errInfo := none, msg := none }

/-- The machine right after reset; the model's own lists are empty (DESIGN CHOICE; safe; log entry 3). -/
def State.reset : State :=
  { build := Config.build, tx := TxChannel.reset, rx := RxChannel.reset, host := [], turns := [], results := [] }

end Sys2Proof.Machine
end

