-- ==== Sys2Proof/Machine/Flags.lean ====
section
/-!
DEFINITION. The status registers (10_state.md R29): BUSY is bit 0, DONE bit 1, ERR bits 5:2, and bits 7:6 are
hard-wired 0.
-/

namespace Sys2Proof.Machine

def statBusy (st : Byte) : Bool := st.getLsbD 0

def statDone (st : Byte) : Bool := st.getLsbD 1

def statErr (st : Byte) : BitVec 4 := st.extractLsb' 2 4

/-- The status byte with the given fields; the reserved bits are 0. -/
def statOf (busy done : Bool) (err : BitVec 4) : Byte :=
  0#2 ++ err ++ BitVec.ofBool done ++ BitVec.ofBool busy

/-- What an accepted START makes of the status: BUSY ← 1, DONE ← 0, ERR ← 0 (10_state.md R38). -/
def statStarted : Byte := statOf true false 0#4

/-- ERR's value for an outcome: 0 on success, else the error's code (10_state.md R39, 60_exceptions.md R381). -/
def outcomeCode : Option Err → BitVec 4
  | none => 0#4
  | some e => e.code

/-- What COMPLETE makes of the status: BUSY ← 0, DONE ← 1, ERR ← code (10_state.md R39). -/
def statCompleted (outcome : Option Err) : Byte := statOf false true (outcomeCode outcome)

end Sys2Proof.Machine
end

