-- ==== Sys2Proof/Machine/Memory.lean ====
section
/-!
DEFINITION. Byte buffers (20_memory.md R60–R62): a list of (offset, byte) pairs in one canonical form, offsets
strictly rising and no entry equal to what an unlisted offset reads as.
-/

namespace Sys2Proof.Machine

/-- What an unlisted offset reads as: the reset contents of both buffers (70_reset_and_hazards.md R420; log
entry 8). -/
abbrev Memory.unlisted : Byte := 0x00#8

/-- One byte of a buffer. -/
def Memory.read : Memory → Nat → Byte
  | [], _ => Memory.unlisted
  | (a, b) :: m, x => if a = x then b else Memory.read m x

/-- Stores one byte, keeping the canonical form. -/
def Memory.write : Memory → Nat → Byte → Memory
  | [], x, v => if v = Memory.unlisted then [] else [(x, v)]
  | (a, b) :: m, x, v =>
    if x < a then (if v = Memory.unlisted then (a, b) :: m else (x, v) :: (a, b) :: m)
    else if x = a then (if v = Memory.unlisted then m else (a, v) :: m)
    else (a, b) :: Memory.write m x v

/-- The canonical form: offsets strictly rising, no entry listed that an unlisted offset would read as. -/
abbrev Memory.wf (m : Memory) : Prop :=
  m.Pairwise (fun x y => x.1 < y.1) ∧ ∀ c ∈ m, c.2 ≠ Memory.unlisted

/-- The `n` bytes from offset `off`, lowest offset first (20_memory.md R62). -/
def readBytes (m : Memory) (off : Nat) : Nat → List Byte
  | 0 => []
  | n + 1 => Memory.read m off :: readBytes m (off + 1) n

/-- Stores a byte string from offset `off` (20_memory.md R62). -/
def writeBytes (m : Memory) (off : Nat) : List Byte → Memory
  | [] => m
  | b :: bs => writeBytes (Memory.write m off b) (off + 1) bs

/-- `MemRead` on a buffer of capacity `cap`: `none` for an access outside `0..cap` (20_memory.md R62). -/
def memRead (cap : Nat) (m : Memory) (off n : Nat) : Option (List Byte) :=
  if off + n ≤ cap then some (readBytes m off n) else none

/-- `MemWrite` on a buffer of capacity `cap`: `none` for an access outside `0..cap` (20_memory.md R62). -/
def memWrite (cap : Nat) (m : Memory) (off : Nat) (v : List Byte) : Option Memory :=
  if off + v.length ≤ cap then some (writeBytes m off v) else none

/-- Every listed offset lies below the capacity. -/
abbrev Memory.within (cap : Nat) (m : Memory) : Prop := ∀ c ∈ m, c.1 < cap

/-- The capacity of `TX_BUF` (20_memory.md R60). -/
abbrev txBufCap : Nat := 30

end Sys2Proof.Machine
end

