-- ==== Sys2Proof/Machine/Ops.lean ====
section
/-!
DEFINITION. The shared operations of the block: the START strobes, the COMPLETE step of each channel with its
success and its error report, FRAME (44_framer.md R300), the delivery of a received frame (45_deframer.md R340),
and the reset event (70_reset_and_hazards.md R420).
An error report takes the place of trap entry (60_exceptions.md R395); the next accepted START is the return
(R396).
-/

namespace Sys2Proof.Machine

open Sys2Proof.Config (Build)

/-! ### Error report and return -/

/-- COMPLETE of FRAME with an error: STAT, ERRINFO and `TX_LEN ← 0`; `TX_BUF` is left unchanged
(44_framer.md R300, 60_exceptions.md R394, R395). -/
def reportTxError (e : Err) (s : State) : State :=
  { s with tx := { s.tx with stat := statCompleted (some e), errInfo := some e, len := 0 } }

/-- COMPLETE of DEFRAME with an error: STAT, ERRINFO and `RX_MSG ← none`
(45_deframer.md R340, 60_exceptions.md R394, R395). -/
def reportRxError (e : Err) (s : State) : State :=
  { s with rx := { s.rx with stat := statCompleted (some e), errInfo := some e, msg := none } }

/-- An accepted START of the TX channel (10_state.md R38): the status alone changes, which clears ERR
(60_exceptions.md R396). The request registers are the latched request (R40). -/
def acceptTxStart (s : State) : State := { s with tx := { s.tx with stat := statStarted } }

/-- An accepted START of the RX channel (10_state.md R38). -/
def acceptRxStart (s : State) : State := { s with rx := { s.rx with stat := statStarted } }

/-! ### FRAME -/

/-- FRAME's result for command byte `c` and variant `t`: the payload's checks, then the command's, then the frame
(44_framer.md R300, R303). -/
def frameResult (s : State) (c : Byte) (t : Variant) : Except Err (List Byte) :=
  match encodePayload s.build (s.tx.records.select t) with
  | .error e => .error e
  | .ok P =>
    if isAllowed t c then .ok (frameOf c s.tx.cameraId P)
    else .error (.invalidCommand (allowedMask t) c)

/-- COMPLETE of FRAME with the frame `F` stored in `buf` (44_framer.md R300). -/
def completeTx (buf : Memory) (F : List Byte) (s : State) : State :=
  { s with tx := { s.tx with stat := statCompleted none, errInfo := none, buf := buf, len := F.length } }

/-- FRAME with command byte `c` (44_framer.md R300). A variant tag 10..15 is refused (R301; log entry 10); an access
outside `TX_BUF` faults (20_memory.md R62; log entry 9). -/
def transmit (c : Byte) (s : State) : Answer :=
  match Variant.ofTag s.tx.variant with
  | none => .refused .noSuchVariant
  | some t =>
    match frameResult s c t with
    | .error e => .next (reportTxError e s)
    | .ok F =>
      match memWrite txBufCap s.tx.buf 0 F with
      | none => .fault .txBufferBounds
      | some buf => .next (completeTx buf F s)

/-! ### Delivery of a received frame -/

/-- The message of a received frame (45_deframer.md R340 step 5, R345): its checksum is the frame's last byte,
which is the checksum of the bytes before it. -/
def messageOf (c : Command) (cam : Byte) (p : Payload) : Message :=
  { command := c, cameraId := cam, payload := p, checksum := checksum (c.toByte :: cam :: p.bytes) }

/-- COMPLETE of DEFRAME with a message (45_deframer.md R340). -/
def deliver (m : Message) (s : State) : State :=
  { s with rx := { s.rx with stat := statCompleted none, errInfo := none, msg := some m } }

/-- The end of DEFRAME for a frame that passed the checks before the payload's fields: the member checks of the
payload's decode rule, then the message (45_deframer.md R340 steps 4 and 5). -/
def receive (c : Command) (cam : Byte) (p : Payload) (s : State) : Answer :=
  .next (match unpackError s.build p with
    | some e => reportRxError e s
    | none => deliver (messageOf c cam p) s)

/-- Executes a command in either form. -/
def runForm {α : Type} (c : Command) (wrap : α → Payload) (f : Form α) (s : State) : Answer :=
  match f with
  | .deframe cam p => receive c cam (wrap p) s
  | .frame => transmit c.toByte s

/-! ### Reset -/

/-- The reset event (70_reset_and_hazards.md R420, R422, R424): every register at once, the build not. What the
host has read and will do, and the order of turns, lie outside the block (log entry 18). -/
def resetEvent (s : State) : State := { s with tx := TxChannel.reset, rx := RxChannel.reset }

end Sys2Proof.Machine
end

