-- ==== Sys2Proof/Machine/ControlCommands.lean ====
section
/-!
DEFINITION. The four mode-control commands (43_commands.md R270–R273). The block frames and routes them and acts
on none (R266, 10_state.md R34).
-/

namespace Sys2Proof.Machine

/-- 43_commands.md R270. -/
def execMode00 (f : Form Poll) (s : State) : Answer := runForm .mode00 .poll f s

/-- 43_commands.md R271. -/
def execMode01 (f : Form Poll) (s : State) : Answer := runForm .mode01 .poll f s

/-- 43_commands.md R272. -/
def execMode02 (f : Form Poll) (s : State) : Answer := runForm .mode02 .poll f s

/-- 43_commands.md R273. -/
def execMode03 (f : Form Poll) (s : State) : Answer := runForm .mode03 .poll f s

end Sys2Proof.Machine
end

