-- ==== Sys2Proof/Machine/DataCommands.lean ====
section
/-!
DEFINITION. The eleven data commands (43_commands.md R274–R284).
-/

namespace Sys2Proof.Machine

/-- 43_commands.md R274. -/
def execPositionPoll (f : Form PositionPoll) (s : State) : Answer := runForm .positionPoll .positionPoll f s

/-- 43_commands.md R275. Its frame form takes a SystemStatus or a Poll payload, as `TX_REQ.variant` says (R264). -/
def execSystemStatus (f : Form SystemStatus) (s : State) : Answer := runForm .systemStatus .systemStatus f s

/-- 43_commands.md R276. -/
def execSystemParams (f : Form SystemControl) (s : State) : Answer := runForm .systemParams .systemControl f s

/-- 43_commands.md R277. -/
def execFirstTarget (f : Form TargetData) (s : State) : Answer := runForm .firstTarget .targetData f s

/-- 43_commands.md R278. -/
def execNextTarget (f : Form TargetData) (s : State) : Answer := runForm .nextTarget .targetData f s

/-- 43_commands.md R279. -/
def execFirstImage (f : Form ImageData) (s : State) : Answer := runForm .firstImage .imageData f s

/-- 43_commands.md R280. -/
def execNextImage (f : Form ImageData) (s : State) : Answer := runForm .nextImage .imageData f s

/-- 43_commands.md R281. -/
def execEepromData (f : Form EepromData) (s : State) : Answer := runForm .eepromData .eepromData f s

/-- 43_commands.md R282. -/
def execRequestEeprom (f : Form EepromDataRequest) (s : State) : Answer :=
  runForm .requestEeprom .eepromDataRequest f s

/-- 43_commands.md R283. -/
def execCameraCalibration (f : Form CameraCalibration) (s : State) : Answer :=
  runForm .cameraCalibration .cameraCalibration f s

/-- 43_commands.md R284. -/
def execDiagnosticMode (f : Form DiagnosticMode) (s : State) : Answer :=
  runForm .diagnosticMode .diagnosticMode f s

end Sys2Proof.Machine
end

