-- ==== Sys2Proof/Machine/Dispatch.lean ====
section
/-! DEFINITION. One arm per command (43_commands.md R270–R284): its meaning. -/

namespace Sys2Proof.Machine

open Sys2Proof

def exec (i : Instr) (s : State) : Host.Outcome State Fault Refusal :=
  match i with
  | .mode00 f => Sys2Proof.Machine.execMode00 f s
  | .mode01 f => Sys2Proof.Machine.execMode01 f s
  | .mode02 f => Sys2Proof.Machine.execMode02 f s
  | .mode03 f => Sys2Proof.Machine.execMode03 f s
  | .positionPoll f => Sys2Proof.Machine.execPositionPoll f s
  | .systemStatus f => Sys2Proof.Machine.execSystemStatus f s
  | .systemParams f => Sys2Proof.Machine.execSystemParams f s
  | .firstTarget f => Sys2Proof.Machine.execFirstTarget f s
  | .nextTarget f => Sys2Proof.Machine.execNextTarget f s
  | .firstImage f => Sys2Proof.Machine.execFirstImage f s
  | .nextImage f => Sys2Proof.Machine.execNextImage f s
  | .eepromData f => Sys2Proof.Machine.execEepromData f s
  | .requestEeprom f => Sys2Proof.Machine.execRequestEeprom f s
  | .cameraCalibration f => Sys2Proof.Machine.execCameraCalibration f s
  | .diagnosticMode f => Sys2Proof.Machine.execDiagnosticMode f s

end Sys2Proof.Machine
end

