-- ==== Sys2Proof/Machine/Ports.lean ====
section
/-!
DEFINITION. The combinational ports (45_deframer.md R350–R357): pure functions of their inputs and of the RX
result registers, which write nothing.
-/

namespace Sys2Proof.Machine

open Sys2Proof.Config (Build)

/-- NARROW (45_deframer.md R350, 60_exceptions.md R391). -/
def narrow (msg : Option Message) (v : Variant) : Except Err Payload :=
  match msg with
  | none => .error (.wrongVariant v none)
  | some m => if m.payload.variant = v then .ok m.payload else .error (.wrongVariant v (some m.payload.variant))

/-- `variant_index()` of the decoded payload (45_deframer.md R351); no tag when there is none (log entry 21). -/
def variantIndex (msg : Option Message) : Option Nat := msg.map (fun m => m.payload.variant.tag)

/-- PACK24 (45_deframer.md R356). -/
def pack24 (sel : Signedness) (w : Word) : Except Err (List Byte) :=
  match sel with
  | .signed => packS24 w
  | .unsigned => packU24 w

/-- UNPACK24 (45_deframer.md R357). -/
def unpack24 (sel : Signedness) (b0 b1 b2 : Byte) : Word :=
  match sel with
  | .signed => unpackS24 b0 b1 b2
  | .unsigned => unpackU24 b0 b1 b2

/-- The value on a port, or the refusal of an input the port has no room for (45_deframer.md R355; log entry 13). -/
def portValue (s : State) : PortUse → Except Refusal Value
  | .narrow v =>
    match narrow s.rx.msg v with
    | .ok p => .ok (.payload p)
    | .error e => .ok (.portError e)
  | .variantIndex => .ok (.tag (variantIndex s.rx.msg))
  | .checksum B => if B.length ≤ s.build.chkMaxLen then .ok (.byte (checksum B)) else .error .checksumInputTooLong
  | .pack24 sel w =>
    match pack24 sel w with
    | .ok B => .ok (.bytes B)
    | .error e => .ok (.portError e)
  | .unpack24 sel b0 b1 b2 => .ok (.word (unpack24 sel b0 b1 b2))

end Sys2Proof.Machine
end

