-- ==== Sys2Proof/Machine/HostPort.lean ====
section
/-!
DEFINITION. The host's side of the block: WRITE (10_state.md R37), START (R38), reads (20_memory.md R69),
port uses (45_deframer.md) and `wait` (30_encoding.md R111).
-/

namespace Sys2Proof.Machine

/-! ### The fields of `TX_REQ.payload`, by name -/

def TxRecords.getWord (r : TxRecords) : WordField → Word
  | .pitch => r.positionPoll.pitch
  | .yaw => r.positionPoll.yaw
  | .roll => r.positionPoll.roll
  | .posZ => r.positionPoll.posZ
  | .posY => r.positionPoll.posY
  | .posX => r.positionPoll.posX
  | .zoom => r.positionPoll.zoom
  | .focus => r.positionPoll.focus
  | .rmsError => r.systemStatus.rmsError
  | .targetX => r.targetData.targetX
  | .targetY => r.targetData.targetY
  | .targetZ => r.targetData.targetZ
  | .targetFlags => r.targetData.targetFlags
  | .imageX => r.imageData.targetX
  | .imageY => r.imageData.targetY
  | .xError => r.imageData.xError
  | .yError => r.imageData.yError
  | .cal0 => r.cameraCalibration.cal0
  | .cal1 => r.cameraCalibration.cal1
  | .cal2 => r.cameraCalibration.cal2
  | .cal3 => r.cameraCalibration.cal3
  | .cal4 => r.cameraCalibration.cal4
  | .cal5 => r.cameraCalibration.cal5
  | .cal6 => r.cameraCalibration.cal6
  | .cal7 => r.cameraCalibration.cal7
  | .cal8 => r.cameraCalibration.cal8

def TxRecords.setWord (r : TxRecords) (f : WordField) (v : Word) : TxRecords :=
  match f with
  | .pitch => { r with positionPoll := { r.positionPoll with pitch := v } }
  | .yaw => { r with positionPoll := { r.positionPoll with yaw := v } }
  | .roll => { r with positionPoll := { r.positionPoll with roll := v } }
  | .posZ => { r with positionPoll := { r.positionPoll with posZ := v } }
  | .posY => { r with positionPoll := { r.positionPoll with posY := v } }
  | .posX => { r with positionPoll := { r.positionPoll with posX := v } }
  | .zoom => { r with positionPoll := { r.positionPoll with zoom := v } }
  | .focus => { r with positionPoll := { r.positionPoll with focus := v } }
  | .rmsError => { r with systemStatus := { r.systemStatus with rmsError := v } }
  | .targetX => { r with targetData := { r.targetData with targetX := v } }
  | .targetY => { r with targetData := { r.targetData with targetY := v } }
  | .targetZ => { r with targetData := { r.targetData with targetZ := v } }
  | .targetFlags => { r with targetData := { r.targetData with targetFlags := v } }
  | .imageX => { r with imageData := { r.imageData with targetX := v } }
  | .imageY => { r with imageData := { r.imageData with targetY := v } }
  | .xError => { r with imageData := { r.imageData with xError := v } }
  | .yError => { r with imageData := { r.imageData with yError := v } }
  | .cal0 => { r with cameraCalibration := { r.cameraCalibration with cal0 := v } }
  | .cal1 => { r with cameraCalibration := { r.cameraCalibration with cal1 := v } }
  | .cal2 => { r with cameraCalibration := { r.cameraCalibration with cal2 := v } }
  | .cal3 => { r with cameraCalibration := { r.cameraCalibration with cal3 := v } }
  | .cal4 => { r with cameraCalibration := { r.cameraCalibration with cal4 := v } }
  | .cal5 => { r with cameraCalibration := { r.cameraCalibration with cal5 := v } }
  | .cal6 => { r with cameraCalibration := { r.cameraCalibration with cal6 := v } }
  | .cal7 => { r with cameraCalibration := { r.cameraCalibration with cal7 := v } }
  | .cal8 => { r with cameraCalibration := { r.cameraCalibration with cal8 := v } }

def TxRecords.getHalf (r : TxRecords) : HalfField → Half
  | .userDefined => r.positionPoll.userDefined
  | .targetNumber => r.targetData.targetNumber
  | .targetNum => r.imageData.targetNum
  | .eepromAddress => r.eepromData.address
  | .eepromRequestAddress => r.eepromDataRequest.address

def TxRecords.setHalf (r : TxRecords) (f : HalfField) (v : Half) : TxRecords :=
  match f with
  | .userDefined => { r with positionPoll := { r.positionPoll with userDefined := v } }
  | .targetNumber => { r with targetData := { r.targetData with targetNumber := v } }
  | .targetNum => { r with imageData := { r.imageData with targetNum := v } }
  | .eepromAddress => { r with eepromData := { r.eepromData with address := v } }
  | .eepromRequestAddress => { r with eepromDataRequest := { r.eepromDataRequest with address := v } }

def TxRecords.getByte (r : TxRecords) : ByteField → Byte
  | .pollCommand => r.poll.command
  | .switchFlags => r.systemStatus.switchFlags
  | .ledFlags => r.systemStatus.ledFlags
  | .systemStatus => r.systemStatus.systemStatus
  | .fwVersion0 => r.systemStatus.fwVersion0
  | .fwVersion1 => r.systemStatus.fwVersion1
  | .fwVersion2 => r.systemStatus.fwVersion2
  | .targetsSeen => r.systemStatus.targetsSeen
  | .targetsIdentified => r.systemStatus.targetsIdentified
  | .targetsUsed => r.systemStatus.targetsUsed
  | .param0 => r.systemControl.param0
  | .param1 => r.systemControl.param1
  | .param2 => r.systemControl.param2
  | .param3 => r.systemControl.param3
  | .param4 => r.systemControl.param4
  | .param5 => r.systemControl.param5
  | .param6 => r.systemControl.param6
  | .param7 => r.systemControl.param7
  | .param8 => r.systemControl.param8
  | .param9 => r.systemControl.param9
  | .studioId => r.targetData.studioId
  | .targetIndex => r.imageData.targetIndex
  | .diagMode => r.diagnosticMode.mode

def TxRecords.setByte (r : TxRecords) (f : ByteField) (v : Byte) : TxRecords :=
  match f with
  | .pollCommand => { r with poll := { r.poll with command := v } }
  | .switchFlags => { r with systemStatus := { r.systemStatus with switchFlags := v } }
  | .ledFlags => { r with systemStatus := { r.systemStatus with ledFlags := v } }
  | .systemStatus => { r with systemStatus := { r.systemStatus with systemStatus := v } }
  | .fwVersion0 => { r with systemStatus := { r.systemStatus with fwVersion0 := v } }
  | .fwVersion1 => { r with systemStatus := { r.systemStatus with fwVersion1 := v } }
  | .fwVersion2 => { r with systemStatus := { r.systemStatus with fwVersion2 := v } }
  | .targetsSeen => { r with systemStatus := { r.systemStatus with targetsSeen := v } }
  | .targetsIdentified => { r with systemStatus := { r.systemStatus with targetsIdentified := v } }
  | .targetsUsed => { r with systemStatus := { r.systemStatus with targetsUsed := v } }
  | .param0 => { r with systemControl := { r.systemControl with param0 := v } }
  | .param1 => { r with systemControl := { r.systemControl with param1 := v } }
  | .param2 => { r with systemControl := { r.systemControl with param2 := v } }
  | .param3 => { r with systemControl := { r.systemControl with param3 := v } }
  | .param4 => { r with systemControl := { r.systemControl with param4 := v } }
  | .param5 => { r with systemControl := { r.systemControl with param5 := v } }
  | .param6 => { r with systemControl := { r.systemControl with param6 := v } }
  | .param7 => { r with systemControl := { r.systemControl with param7 := v } }
  | .param8 => { r with systemControl := { r.systemControl with param8 := v } }
  | .param9 => { r with systemControl := { r.systemControl with param9 := v } }
  | .studioId => { r with targetData := { r.targetData with studioId := v } }
  | .targetIndex => { r with imageData := { r.imageData with targetIndex := v } }
  | .diagMode => { r with diagnosticMode := { r.diagnosticMode with mode := v } }

/-! ### Reading -/

/-- The value of a register (20_memory.md R69): reading changes nothing. A START strobe reads as 0
(10_state.md R25, R28). `none` for a byte outside its buffer. A request register is read while its channel is BUSY too
(DEDUCED; log entry 11). -/
def readReg (s : State) : Reg → Option Value
  | .txVariant => some (.nibble s.tx.variant)
  | .txCommand => some (.byte s.tx.command)
  | .txCameraId => some (.byte s.tx.cameraId)
  | .txWord f => some (.word (s.tx.records.getWord f))
  | .txHalf f => some (.half (s.tx.records.getHalf f))
  | .txByte f => some (.byte (s.tx.records.getByte f))
  | .txDsp => some (.dsp s.tx.records.systemStatus.dspStatus)
  | .txData => some (.raw s.tx.records.eepromData.data)
  | .txStart => some (.bit false)
  | .txStat => some (.byte s.tx.stat)
  | .txBusy => some (.bit (statBusy s.tx.stat))
  | .txDone => some (.bit (statDone s.tx.stat))
  | .txErr => some (.nibble (statErr s.tx.stat))
  | .txErrInfo => some (.errInfo s.tx.errInfo)
  | .txBuf off => if off < txBufCap then some (.byte (Memory.read s.tx.buf off)) else none
  | .txLen => some (.nat s.tx.len)
  | .rxBuf off => if off < s.build.rxMaxLen then some (.byte (Memory.read s.rx.buf off)) else none
  | .rxLen => some (.nat s.rx.len)
  | .rxStart => some (.bit false)
  | .rxStat => some (.byte s.rx.stat)
  | .rxBusy => some (.bit (statBusy s.rx.stat))
  | .rxDone => some (.bit (statDone s.rx.stat))
  | .rxErr => some (.nibble (statErr s.rx.stat))
  | .rxErrInfo => some (.errInfo s.rx.errInfo)
  | .rxMsg => some (.message s.rx.msg)

/-! ### Writing -/

/-- The TX request registers after a WRITE of one of them; other writes leave them as they are. -/
def TxChannel.written (t : TxChannel) : RegWrite → TxChannel
  | .txVariant v => { t with variant := v }
  | .txCommand v => { t with command := v }
  | .txCameraId v => { t with cameraId := v }
  | .txWord f v => { t with records := t.records.setWord f v }
  | .txHalf f v => { t with records := t.records.setHalf f v }
  | .txByte f v => { t with records := t.records.setByte f v }
  | .txDsp v => { t with records := { t.records with systemStatus := { t.records.systemStatus with dspStatus := v } } }
  | .txData v => { t with records := { t.records with eepromData := { t.records.eepromData with data := v } } }
  | .rxBuf _ _ => t
  | .rxLen _ => t
  | .txStat _ => t
  | .rxStat _ => t

/-- A WRITE of a TX request register: refused while the channel is BUSY (10_state.md R37, R41). -/
def writeTx (w : RegWrite) (s : State) : Answer :=
  if statBusy s.tx.stat then .refused .writeWhileBusy
  else .next { s with tx := s.tx.written w }

/-- A WRITE of bytes of `RX_BUF`: refused while the channel is BUSY, and outside the buffer (10_state.md R28, R37,
R41; log entry 13). -/
def writeRxBuf (off : Nat) (bytes : List Byte) (s : State) : Answer :=
  if statBusy s.rx.stat then .refused .writeWhileBusy
  else
    match memWrite s.build.rxMaxLen s.rx.buf off bytes with
    | none => .refused .noSuchByte
    | some buf => .next { s with rx := { s.rx with buf := buf } }

/-- A WRITE of `RX_LEN`: refused while the channel is BUSY, and above `RX_MAX_LEN` (10_state.md R37, R41;
70_reset_and_hazards.md R433). -/
def writeRxLen (n : Nat) (s : State) : Answer :=
  if statBusy s.rx.stat then .refused .writeWhileBusy
  else if n ≤ s.build.rxMaxLen then .next { s with rx := { s.rx with len := n } }
  else .refused .rxLenTooLarge

/-- The host step WRITE (10_state.md R37). The status registers are read only: a write of one has no effect
(R29; log entry 12). -/
def hostWrite (w : RegWrite) (s : State) : Answer :=
  match w with
  | .txVariant _ => writeTx w s
  | .txCommand _ => writeTx w s
  | .txCameraId _ => writeTx w s
  | .txWord _ _ => writeTx w s
  | .txHalf _ _ => writeTx w s
  | .txByte _ _ => writeTx w s
  | .txDsp _ => writeTx w s
  | .txData _ => writeTx w s
  | .rxBuf off bytes => writeRxBuf off bytes s
  | .rxLen n => writeRxLen n s
  | .txStat _ => .next s
  | .rxStat _ => .next s

/-! ### START -/

/-- A write of `TX_CTRL.START`, of 1 or of 0: refused while the channel is BUSY (70_reset_and_hazards.md R430,
10_state.md R41). Otherwise a 1 is the START (R38), which no variant tag 10..15 allows (44_framer.md R301), and a 0 has
no effect. -/
def hostStartTx (v : Bool) (s : State) : Answer :=
  if statBusy s.tx.stat then .refused .startWhileBusy
  else if v then
    match Variant.ofTag s.tx.variant with
    | none => .refused .noSuchVariant
    | some _ => .next (acceptTxStart s)
  else .next s

/-- A write of `RX_CTRL.START`, of 1 or of 0: refused while the channel is BUSY (70_reset_and_hazards.md R430,
10_state.md R41). Otherwise a 1 is the START (R38) and a 0 has no effect. -/
def hostStartRx (v : Bool) (s : State) : Answer :=
  if statBusy s.rx.stat then .refused .startWhileBusy
  else if v then .next (acceptRxStart s)
  else .next s

/-! ### The host's turn -/

/-- Records what the host has read (log entry 16). -/
def record (v : Value) (s : State) : State := { s with results := v :: s.results }

/-- One step of the host on the block. -/
def hostStep (h : HostStep) (s : State) : Answer :=
  match h with
  | .write w => hostWrite w s
  | .startTx v => hostStartTx v s
  | .startRx v => hostStartRx v s
  | .read r =>
    match readReg s r with
    | some v => .next (record v s)
    | none => .refused .noSuchByte
  | .port p =>
    match portValue s p with
    | .ok v => .next (record v s)
    | .error r => .refused r
  | .wait r _ =>
    match readReg s r with
    | some _ => .next s
    | none => .refused .noSuchByte

/-- Is the host waiting for a register that does not yet read the value (30_encoding.md R111; log entry 17)? -/
def hostWaits (s : State) : HostStep → Bool
  | .wait r v =>
    match readReg s r with
    | some v' => decide (v' ≠ v)
    | none => false
  | .write _ => false
  | .startTx _ => false
  | .startRx _ => false
  | .read _ => false
  | .port _ => false

/-- The host takes a step: its next one, unless it has none or waits (log entry 5). -/
def hostTurn (s : State) : Answer :=
  match s.host with
  | [] => .next s
  | h :: rest => if hostWaits s h then .next s else hostStep h { s with host := rest }

end Sys2Proof.Machine
end

