-- ==== Sys2Proof/Machine/Turns.lean ====
section
/-!
DEFINITION. The turns of the agents (10_state.md R20): what each channel fetches and executes at its COMPLETE
step (R39), and who moves next.
-/

namespace Sys2Proof.Machine

open Sys2Proof

/-- `RX_BUF[0..RX_LEN]`, what the RX channel fetches (20_memory.md R61, R63); `none` outside the buffer. -/
def rxFetch (s : State) : Option (List Byte) := memRead s.build.rxMaxLen s.rx.buf 0 s.rx.len

/-- The RX channel's turn: if BUSY it performs DEFRAME as one step (10_state.md R39, 45_deframer.md R340),
executing the instruction its buffer decodes to; if idle it does nothing (log entry 5). -/
def rxTurn (s : State) : Answer :=
  if statBusy s.rx.stat then
    match rxFetch s with
    | none => .fault .rxBufferBounds
    | some F =>
      match decode (.rx F) with
      | .ok i => exec i s
      | .error e => .next (reportRxError e s)
  else .next s

/-- The TX channel's turn: if BUSY it performs FRAME as one step (10_state.md R39, 44_framer.md R300), executing
the instruction its command register decodes to. A command byte that is no command is no instruction; FRAME
then runs with that byte, which is in no allowed set (R302). If idle it does nothing (log entry 5). -/
def txTurn (s : State) : Answer :=
  if statBusy s.tx.stat then
    match decode (.tx s.tx.command) with
    | .ok i => exec i s
    | .error _ => transmit s.tx.command s
  else .next s

/-- One turn of an agent, or the reset event. -/
def takeTurn (t : Turn) (s : State) : Answer :=
  match t with
  | .host => hostTurn s
  | .tx => txTurn s
  | .rx => rxTurn s
  | .reset => .next (resetEvent s)

/-- Who moves when `turns` says nothing: a BUSY channel before the host, so that every operation completes
(DESIGN CHOICE; unsafe for claims about an empty `turns`; log entry 4). -/
def defaultTurn (s : State) : Turn :=
  if statBusy s.rx.stat then .rx else if statBusy s.tx.stat then .tx else .host

/-- The step: the next turn of `turns`, or the default one. -/
def nextTurn (s : State) : Answer :=
  match s.turns with
  | [] => takeTurn (defaultTurn s) s
  | t :: rest => takeTurn t { s with turns := rest }

/-- The received frame `F` as the RX channel's latched request, with the RX channel to move next: what the
host's writes of `RX_BUF` and `RX_LEN` and its START leave (30_encoding.md R111, `DEFRAME [B]`). -/
def placeFrame (F : List Byte) (s : State) : State :=
  { s with
    rx := { s.rx with buf := writeBytes s.rx.buf 0 F, len := F.length, stat := statStarted }
    turns := .rx :: s.turns }

end Sys2Proof.Machine
end

