-- ==== Sys2Proof/Machine/Step.lean ====
section
/-!
DEFINITION. The step of the machine, and the placing of an instruction where the next step fetches it: in the
RX channel's buffer, with the channel started and its turn next (log entries 2 and 3).
-/

namespace Sys2Proof.Machine

def step (s : State) : Host.Outcome State Fault Refusal := nextTurn s

def State.withFetchWord (s : State) (nbits w : Nat) : State := placeFrame (tableFrame nbits w) s

end Sys2Proof.Machine
end

