-- ==== Sys2Proof/Safety.lean ====
section
/-!
DEFINITION. What holds of every state a run reaches, and what a safe answer is. `State.Inv` is an invariant of the
step: the statements that could fail only in states no run reaches assume it.
-/

namespace Sys2Proof.Machine

open Sys2Proof.Config (Build)

/-- The legal combinations of a status register (10_state.md R29): BUSY and DONE not both, ERR 0 unless DONE, and
the reserved bits 0. -/
structure StatLegal (st : Byte) : Prop where
  not_both : statBusy st = true → statDone st = false
  err_zero : statDone st = false → statErr st = 0#4
  reserved : st.extractLsb' 6 2 = 0#2

/-- What holds of the TX channel's registers. -/
structure TxChannel.Ok (t : TxChannel) : Prop where
  stat : StatLegal t.stat
  /-- The codes the TX channel can write (60_exceptions.md R382). -/
  codes : statErr t.stat ∈ [0#4, 5#4, 6#4, 8#4]
  /-- ERR is the code of ERRINFO's record once the operation is done (10_state.md R39). -/
  report : statDone t.stat = true → statErr t.stat = outcomeCode t.errInfo
  /-- Neither BUSY nor DONE only after reset, with the result registers at their reset values (R29, R420). -/
  fresh : statBusy t.stat = false → statDone t.stat = false → t.errInfo = none ∧ t.buf = [] ∧ t.len = 0
  /-- A running request names a variant (44_framer.md R301). -/
  named : statBusy t.stat = true → (Variant.ofTag t.variant).isSome = true
  /-- No frame, or one of 4 to 30 bytes (30_encoding.md R92). -/
  len : t.len = 0 ∨ (4 ≤ t.len ∧ t.len ≤ txBufCap)
  /-- `TX_LEN = 0` after an error (10_state.md R26, 60_exceptions.md R394). -/
  no_partial : t.errInfo ≠ none → t.len = 0
  buf_wf : Memory.wf t.buf
  buf_within : Memory.within txBufCap t.buf

/-- What holds of a message in `RX_MSG` (10_state.md R24, 42_payloads.md R221, 45_deframer.md R345). -/
structure Message.Ok (b : Build) (m : Message) : Prop where
  routed : m.payload.variant = route m.command
  legal : m.payload.legal b = true
  checksum_ok : m.checksum = Sys2Proof.Machine.checksum (m.command.toByte :: m.cameraId :: m.payload.bytes)

/-- What holds of the RX channel's registers. -/
structure RxChannel.Ok (b : Build) (r : RxChannel) : Prop where
  stat : StatLegal r.stat
  /-- The codes the RX channel can write (60_exceptions.md R382). -/
  codes : statErr r.stat ∈ [0#4, 1#4, 2#4, 3#4, 4#4, 5#4]
  report : statDone r.stat = true → statErr r.stat = outcomeCode r.errInfo
  fresh : statBusy r.stat = false → statDone r.stat = false → r.errInfo = none ∧ r.msg = none
  /-- `RX_LEN` holds 0..`RX_MAX_LEN` (10_state.md R28). -/
  len : r.len ≤ b.rxMaxLen
  /-- After an error there is no message (60_exceptions.md R394). -/
  no_partial : r.errInfo ≠ none → r.msg = none
  /-- After a success there is one. -/
  delivered : statDone r.stat = true → r.errInfo = none → r.msg ≠ none
  message : ∀ m, r.msg = some m → m.Ok b
  buf_wf : Memory.wf r.buf
  buf_within : Memory.within b.rxMaxLen r.buf

/-- The invariant of the machine. -/
structure State.Inv (s : State) : Prop where
  tx : s.tx.Ok
  rx : s.rx.Ok s.build

/-- A safe answer is no fault (60_exceptions.md R398; 20_memory.md R62): the block goes on, or the host's step
does not exist. -/
def Answer.noFault (a : Answer) : Prop := ∀ r, a ≠ .fault r

/-- The agent that moves in the next step. -/
def mover (s : State) : Turn :=
  match s.turns with
  | [] => defaultTurn s
  | t :: _ => t

/-- The state in which that agent moves: its entry of `turns` is taken. -/
def afterPick (s : State) : State := { s with turns := s.turns.tail }

end Sys2Proof.Machine
end

