-- ==== Sys2Proof/Certificates/Slice0/Obligations.lean ====
section
/-!
DEFINITION. The statements about the block, from the numbered rules of spec/. The helpers below are tables of the
spec written out a second time, so that a statement does not read them from the definition it speaks of.
-/

namespace Sys2Proof.Statements

open Sys2Proof Sys2Proof.Machine

/-- The name of a field's type, as 30_encoding.md R100–R109 write it. -/
def typeName : Field → String
  | .s24 _ => "s24"
  | .u24 _ => "u24"
  | .u16 _ => "u16"
  | .u8 _ => "u8"
  | .flags8 _ => "flags8"
  | .enum8 .pollCommand _ => "cmd8"
  | .enum8 .sysStatusStatus _ => "enum8(SYSSTATUS_CODES)"
  | .enum8 .sysStatusDsp _ => "enum8(DSPERROR_CODES)"
  | .enum8 .diagMode _ => "enum8(DIAGMODE_CODES)"
  | .dsp _ => "dsp"
  | .raw _ => "raw16x8"

/-- The layout tables of 30_encoding.md R100–R109: field, frame offset, width, type. -/
def layoutTable : Variant → List (String × Nat × Nat × String)
  | .poll => [("command", 2, 1, "cmd8")]
  | .positionPoll =>
    [("pitch", 2, 3, "s24"), ("yaw", 5, 3, "s24"), ("roll", 8, 3, "s24"), ("pos_z", 11, 3, "s24"),
     ("pos_y", 14, 3, "s24"), ("pos_x", 17, 3, "s24"), ("zoom", 20, 3, "u24"), ("focus", 23, 3, "u24"),
     ("user_defined", 26, 2, "u16")]
  | .systemStatus =>
    [("switch_flags", 2, 1, "flags8"), ("led_flags", 3, 1, "flags8"),
     ("system_status", 4, 1, "enum8(SYSSTATUS_CODES)"), ("fw_version_0", 5, 1, "u8"), ("fw_version_1", 6, 1, "u8"),
     ("fw_version_2", 7, 1, "u8"), ("dsp_status", 8, 1, "dsp"), ("targets_seen", 9, 1, "u8"),
     ("targets_identified", 10, 1, "u8"), ("targets_used", 11, 1, "u8"), ("rms_error", 12, 3, "u24")]
  | .systemControl =>
    [("param_0", 2, 1, "u8"), ("param_1", 3, 1, "u8"), ("param_2", 4, 1, "u8"), ("param_3", 5, 1, "u8"),
     ("param_4", 6, 1, "u8"), ("param_5", 7, 1, "u8"), ("param_6", 8, 1, "u8"), ("param_7", 9, 1, "u8"),
     ("param_8", 10, 1, "u8"), ("param_9", 11, 1, "u8")]
  | .targetData =>
    [("studio_id", 2, 1, "u8"), ("target_number", 3, 2, "u16"), ("target_x", 5, 3, "s24"), ("target_y", 8, 3, "s24"),
     ("target_z", 11, 3, "s24"), ("target_flags", 14, 3, "s24")]
  | .imageData =>
    [("target_index", 2, 1, "u8"), ("target_num", 3, 2, "u16"), ("target_x", 5, 3, "s24"), ("target_y", 8, 3, "s24"),
     ("x_error", 11, 3, "s24"), ("y_error", 14, 3, "s24")]
  | .eepromData => [("address", 2, 2, "u16"), ("data", 4, 16, "raw16x8")]
  | .eepromDataRequest => [("address", 2, 2, "u16")]
  | .cameraCalibration =>
    [("cal_0", 2, 3, "s24"), ("cal_1", 5, 3, "s24"), ("cal_2", 8, 3, "s24"), ("cal_3", 11, 3, "s24"),
     ("cal_4", 14, 3, "s24"), ("cal_5", 17, 3, "s24"), ("cal_6", 20, 3, "s24"), ("cal_7", 23, 3, "s24"),
     ("cal_8", 26, 3, "s24")]
  | .diagnosticMode => [("mode", 2, 1, "enum8(DIAGMODE_CODES)")]

/-- The (variant, command) pairs of the compatibility table (44_framer.md R302). -/
def compatiblePairs : List (Variant × Byte) :=
  [(.poll, 0x00#8), (.poll, 0x01#8), (.poll, 0x02#8), (.poll, 0x03#8), (.poll, 0xD2#8),
   (.positionPoll, 0xD1#8), (.systemStatus, 0xD2#8), (.systemControl, 0xD3#8),
   (.targetData, 0xD4#8), (.targetData, 0xD5#8), (.imageData, 0xD6#8), (.imageData, 0xD7#8),
   (.eepromData, 0xD8#8), (.eepromDataRequest, 0xD9#8), (.cameraCalibration, 0xDA#8), (.diagnosticMode, 0xDB#8)]

/-- The fifteen command codes (30_encoding.md R96). -/
def commandCodes : List Byte :=
  [0x00#8, 0x01#8, 0x02#8, 0x03#8, 0xD1#8, 0xD2#8, 0xD3#8, 0xD4#8, 0xD5#8, 0xD6#8, 0xD7#8, 0xD8#8, 0xD9#8, 0xDA#8,
   0xDB#8]

/-- The frame form of every instruction: the fifteen commands as framing requests. -/
def frameForms : List Instr :=
  [.mode00 .frame, .mode01 .frame, .mode02 .frame, .mode03 .frame, .positionPoll .frame, .systemStatus .frame,
   .systemParams .frame, .firstTarget .frame, .nextTarget .frame, .firstImage .frame, .nextImage .frame,
   .eepromData .frame, .requestEeprom .frame, .cameraCalibration .frame, .diagnosticMode .frame]

/-- The sum of a byte string. -/
def byteSum (B : List Byte) : Nat := (B.map BitVec.toNat).sum

/-- The state with a message delivered by DEFRAME: STAT says DONE with ERR 0. -/
def delivered (s : State) (c : Command) (cam : Byte) (p : Payload) (chk : Byte) : State :=
  { s with rx := { s.rx with
      stat := 0x02#8, errInfo := none, msg := some { command := c, cameraId := cam, payload := p, checksum := chk } } }

/-- The state with an error reported by DEFRAME. -/
def rxFailed (s : State) (e : Err) : State :=
  { s with rx := { s.rx with stat := statOf false true e.code, errInfo := some e, msg := none } }

/-- The state with an error reported by FRAME. -/
def txFailed (s : State) (e : Err) : State :=
  { s with tx := { s.tx with stat := statOf false true e.code, errInfo := some e, len := 0 } }

/-- The state with the frame `F` produced by FRAME. -/
def framed (s : State) (F : List Byte) : State :=
  { s with tx := { s.tx with stat := 0x02#8, errInfo := none, buf := writeBytes s.tx.buf 0 F, len := F.length } }

/-- The value a host WRITE leaves in a register, where it writes that register. -/
def writtenValue : RegWrite → Reg → Option Value
  | .txVariant v, .txVariant => some (.nibble v)
  | .txCommand v, .txCommand => some (.byte v)
  | .txCameraId v, .txCameraId => some (.byte v)
  | .txWord f v, .txWord g => if f = g then some (.word v) else none
  | .txHalf f v, .txHalf g => if f = g then some (.half v) else none
  | .txByte f v, .txByte g => if f = g then some (.byte v) else none
  | .txDsp v, .txDsp => some (.dsp v)
  | .txData v, .txData => some (.raw v)
  | .rxBuf off bytes, .rxBuf a =>
    if off ≤ a ∧ a < off + bytes.length then some (.byte (bytes.getD (a - off) 0#8)) else none
  | .rxLen n, .rxLen => some (.nat n)
  | _, _ => none

/-- The writes of the TX request registers. -/
def isTxWrite : RegWrite → Bool
  | .txVariant _ => true
  | .txCommand _ => true
  | .txCameraId _ => true
  | .txWord _ _ => true
  | .txHalf _ _ => true
  | .txByte _ _ => true
  | .txDsp _ => true
  | .txData _ => true
  | .rxBuf _ _ => false
  | .rxLen _ => false
  | .txStat _ => false
  | .rxStat _ => false

/-- The writes of the RX request registers. -/
def isRxWrite : RegWrite → Bool
  | .rxBuf _ _ => true
  | .rxLen _ => true
  | .txVariant _ => false
  | .txCommand _ => false
  | .txCameraId _ => false
  | .txWord _ _ => false
  | .txHalf _ _ => false
  | .txByte _ _ => false
  | .txDsp _ => false
  | .txData _ => false
  | .txStat _ => false
  | .rxStat _ => false

/-- A write the registers have room for: `RX_BUF` inside its capacity, `RX_LEN` a value of its type. -/
def fits (s : State) : RegWrite → Prop
  | .rxBuf off bytes => off + bytes.length ≤ s.build.rxMaxLen
  | .rxLen n => n ≤ s.build.rxMaxLen
  | _ => True

/-- A write of one register: of `RX_BUF`, one byte or the whole buffer. -/
def writesOneRegister (s : State) : RegWrite → Prop
  | .rxBuf off bytes => bytes.length = 1 ∨ (off = 0 ∧ bytes.length = s.build.rxMaxLen)
  | _ => True

/-- Every register of the block reads as the reset table says (70_reset_and_hazards.md R420). -/
def registersReset (s : State) : Prop :=
  readReg s .txVariant = some (.nibble 0#4) ∧ readReg s .txCommand = some (.byte 0x00#8) ∧
  readReg s .txCameraId = some (.byte 0x00#8) ∧
  (∀ f, readReg s (.txWord f) = some (.word 0#32)) ∧ (∀ f, readReg s (.txHalf f) = some (.half 0#16)) ∧
  (∀ f, readReg s (.txByte f) = some (.byte 0#8)) ∧ readReg s .txDsp = some (.dsp (.iterations 0#7)) ∧
  (∃ r, readReg s .txData = some (.raw r) ∧ r.toBytes = List.replicate 16 0x00#8) ∧
  readReg s .txStart = some (.bit false) ∧ readReg s .txStat = some (.byte 0x00#8) ∧
  readReg s .txErrInfo = some (.errInfo none) ∧ (∀ a, a < 30 → readReg s (.txBuf a) = some (.byte 0x00#8)) ∧
  readReg s .txLen = some (.nat 0) ∧
  (∀ a, a < s.build.rxMaxLen → readReg s (.rxBuf a) = some (.byte 0x00#8)) ∧ readReg s .rxLen = some (.nat 0) ∧
  readReg s .rxStart = some (.bit false) ∧ readReg s .rxStat = some (.byte 0x00#8) ∧
  readReg s .rxErrInfo = some (.errInfo none) ∧ readReg s .rxMsg = some (.message none)

end Sys2Proof.Statements

open Sys2Proof Sys2Proof.Machine Sys2Proof.Statements

/-! ### The field packer -/

/-- 40_field_packer.md R141. -/
def Obligations.SignedPackEmitsThreeBytesOrRaisesRangeError : Prop :=
  ∀ w : Word,
    ((-8388608 ≤ w.toInt ∧ w.toInt ≤ 8388607) →
      packS24 w = .ok [w.extractLsb' 16 8, w.extractLsb' 8 8, w.extractLsb' 0 8] ∧
      w.extractLsb' 24 8 = (if w.getLsbD 23 then 0xFF#8 else 0x00#8)) ∧
    (¬ (-8388608 ≤ w.toInt ∧ w.toInt ≤ 8388607) →
      packS24 w = .error (.rangeError w.toInt (-8388608) 8388607))

/-- 40_field_packer.md R142: the word is read unsigned. -/
def Obligations.UnsignedPackEmitsThreeBytesOrRaisesRangeError : Prop :=
  ∀ w : Word,
    (w.toNat ≤ 16777215 → packU24 w = .ok [w.extractLsb' 16 8, w.extractLsb' 8 8, w.extractLsb' 0 8]) ∧
    (16777215 < w.toNat → packU24 w = .error (.rangeError w.toNat 0 16777215))

/-- 40_field_packer.md R143, R144: the value of the three bytes, sign-extended or zero-extended. -/
def Obligations.UnpackExtendsTheThreeBytes : Prop :=
  ∀ b0 b1 b2 : Byte,
    (unpackS24 b0 b1 b2).setWidth 24 = b0 ++ b1 ++ b2 ∧
    (unpackS24 b0 b1 b2).extractLsb' 24 8 = (if b0.getLsbD 7 then 0xFF#8 else 0x00#8) ∧
    (unpackS24 b0 b1 b2).toInt =
      (b0.toNat * 65536 + b1.toNat * 256 + b2.toNat : Int) - (if 128 ≤ b0.toNat then 16777216 else 0) ∧
    -8388608 ≤ (unpackS24 b0 b1 b2).toInt ∧ (unpackS24 b0 b1 b2).toInt ≤ 8388607 ∧
    (unpackU24 b0 b1 b2).toNat = b0.toNat * 65536 + b1.toNat * 256 + b2.toNat ∧
    (unpackU24 b0 b1 b2).toNat ≤ 16777215

/-- The round-trip laws the spec derives (40_field_packer.md, section 1), and that a packed word is never a wrapped or
saturated one: it reads back as itself. -/
def Obligations.PackedIntsReadBackAsThemselves : Prop :=
  (∀ b0 b1 b2 : Byte, packS24 (unpackS24 b0 b1 b2) = .ok [b0, b1, b2] ∧
    packU24 (unpackU24 b0 b1 b2) = .ok [b0, b1, b2]) ∧
  (∀ (w : Word) (B : List Byte), packS24 w = .ok B → ∃ b0 b1 b2, B = [b0, b1, b2] ∧ unpackS24 b0 b1 b2 = w) ∧
  (∀ (w : Word) (B : List Byte), packU24 w = .ok B → ∃ b0 b1 b2, B = [b0, b1, b2] ∧ unpackU24 b0 b1 b2 = w)

/-- 40_field_packer.md R147, and the fields that never raise (R148, R151). -/
def Obligations.SixteenBitAndVerbatimFieldsRoundTrip : Prop :=
  (∀ (b : Config.Build) (h : Half), (Field.u16 h).pack b = .ok [h.extractLsb' 8 8, h.extractLsb' 0 8] ∧
    unpackU16 (h.extractLsb' 8 8) (h.extractLsb' 0 8) = h) ∧
  (∀ b0 b1 : Byte, (unpackU16 b0 b1).toNat = b0.toNat * 256 + b1.toNat ∧ packU16 (unpackU16 b0 b1) = [b0, b1]) ∧
  (∀ (b : Config.Build) (v : Byte), (Field.u8 v).pack b = .ok [v] ∧ (Field.flags8 v).pack b = .ok [v]) ∧
  (∀ (b : Config.Build) (r : Raw16), (Field.raw r).pack b = .ok r.toBytes ∧ r.toBytes.length = 16) ∧
  (∀ B : List Byte, B.length = 18 → (readEepromData B).data.toBytes = B.drop 2)

/-- 40_field_packer.md R149, with the member sets of 60_exceptions.md R384. -/
def Obligations.EnumerationFieldsRaiseOnNonMembers : Prop :=
  ∀ (b : Config.Build) (fid : FieldId) (v : Byte),
    (isMember b .pollCommand v = true ↔ v ∈ commandCodes) ∧
    (isMember b .sysStatusStatus v = true ↔ v ∈ b.sysStatusCodes) ∧
    (isMember b .diagMode v = true ↔ v ∈ b.diagModeCodes) ∧
    (isMember b fid v = true → (Field.enum8 fid v).pack b = .ok [v] ∧ (Field.enum8 fid v).checkUnpacked b = .ok ()) ∧
    (isMember b fid v = false → (Field.enum8 fid v).pack b = .error (.invalidEnumValue fid v) ∧
      (Field.enum8 fid v).checkUnpacked b = .error (.invalidEnumValue fid v))

/-- 40_field_packer.md R150. The error member set is a set of negative codes that contains INTERNAL_ERROR
(00_scope.md R6). -/
def Obligations.DspByteSplitsBySign : Prop :=
  ∀ (b : Config.Build) (v : Byte) (n : BitVec 7) (c : Byte),
    (v.toNat < 128 → ∃ k : BitVec 7, readDsp v = .iterations k ∧ k.toNat = v.toNat) ∧
    (128 ≤ v.toNat → readDsp v = .error v) ∧
    (∃ x : Byte, (Field.dsp (.iterations n)).pack b = .ok [x] ∧ x.toNat = n.toNat ∧ readDsp x = .iterations n) ∧
    (Field.dsp (.iterations n)).checkUnpacked b = .ok () ∧
    (b.isDspError c = true → (Field.dsp (.error c)).pack b = .ok [c] ∧ readDsp c = .error c ∧
      (Field.dsp (.error c)).checkUnpacked b = .ok ()) ∧
    (b.isDspError c = false → (Field.dsp (.error c)).pack b = .error (.invalidEnumValue .sysStatusDsp c) ∧
      (Field.dsp (.error c)).checkUnpacked b = .error (.invalidEnumValue .sysStatusDsp c)) ∧
    (b.isDspError c = true → 128 ≤ c.toNat) ∧ b.isDspError b.internalErrorCode = true

/-! ### The checksum -/

/-- 41_checksum.md R170: seed 0x40, and one subtraction mod 256 for every byte, in order. -/
def Obligations.ChecksumSubtractsEveryByteFromTheSeed : Prop :=
  checksum [] = 0x40#8 ∧ (∀ (B : List Byte) (b : Byte), checksum (B ++ [b]) = checksum B - b) ∧
  checksum [0x40#8] = 0x00#8 ∧ checksum [0xFF#8, 0xFF#8, 0xFF#8, 0xFF#8] = 0x44#8 ∧
  checksum [0x01#8, 0x02#8, 0x03#8, 0x04#8, 0x05#8] = 49#8

/-- The closed form and the frame sum identity the spec derives (41_checksum.md). -/
def Obligations.ChecksumClosedFormAndFrameSum : Prop :=
  (∀ B : List Byte, ((checksum B).toNat : Int) = (0x40 - (byteSum B : Int)) % 256) ∧
  (∀ F : List Byte, F ≠ [] →
    (checksum (F.take (F.length - 1)) = byteAt F (F.length - 1) ↔ byteSum F % 256 = 0x40))

/-- Detection, which the spec derives (41_checksum.md): one changed byte always, reordering and cancelling changes
never. -/
def Obligations.ChecksumDetectsOneChangedByteOnly : Prop :=
  (∀ (B : List Byte) (k : Nat) (v : Byte), k < B.length → v ≠ byteAt B k → checksum (B.set k v) ≠ checksum B) ∧
  (∀ B C : List Byte, B.Perm C → checksum B = checksum C) ∧
  (∀ B C : List Byte, byteSum B % 256 = byteSum C % 256 → checksum B = checksum C)

/-! ### Commands, routing, layouts -/

/-- 43_commands.md R260. -/
def Obligations.RoutingFollowsItsTable : Prop :=
  Command.all.map (fun c => (c.toByte, route c, (route c).payloadLen)) =
    [(0x00#8, .poll, 1), (0x01#8, .poll, 1), (0x02#8, .poll, 1), (0x03#8, .poll, 1),
     (0xD1#8, .positionPoll, 26), (0xD2#8, .systemStatus, 13), (0xD3#8, .systemControl, 10),
     (0xD4#8, .targetData, 15), (0xD5#8, .targetData, 15), (0xD6#8, .imageData, 15), (0xD7#8, .imageData, 15),
     (0xD8#8, .eepromData, 18), (0xD9#8, .eepromDataRequest, 2), (0xDA#8, .cameraCalibration, 27),
     (0xDB#8, .diagnosticMode, 1)] ∧
  (∀ c : Command, c ∈ Command.all) ∧
  Variant.all.map Variant.tag = [0, 1, 2, 3, 4, 5, 6, 7, 8, 9] ∧ (∀ v : Variant, v ∈ Variant.all)

/-- 30_encoding.md R96. -/
def Obligations.CommandCodesAreAPartialBijection : Prop :=
  (∀ c : Command, Command.fromByte c.toByte = some c) ∧
  (∀ (b : Byte) (c : Command), Command.fromByte b = some c → c.toByte = b) ∧
  (∀ b : Byte, (Command.fromByte b).isSome = true ↔ b ∈ commandCodes) ∧ commandCodes.Nodup

/-- What the spec derives of routing and compatibility (43_commands.md), and the mask of InvalidCommand, whose bit
order is the model's (log entry 7). -/
def Obligations.CompatibilityIsRoutingPlusThePollRequest : Prop :=
  (∀ (v : Variant) (c : Command), c ∈ allowed v ↔ (route c = v ∨ (v = .poll ∧ c = .systemStatus))) ∧
  (∀ v : Variant, ∃ c, route c = v) ∧
  (∀ (v : Variant) (c : Command), (allowedMask v).getLsbD c.row = true ↔ c ∈ allowed v)

/-- 44_framer.md R302. The set allowed(t) is held as the mask `allowedMask t`; which bit stands for which command is
nothing this statement rests on. -/
def Obligations.FramerAcceptsExactlyTheCompatiblePairs : Prop :=
  ∀ (s : State) (t : Variant) (c : Byte) (P : List Byte),
    encodePayload s.build (s.tx.records.select t) = .ok P →
      ((t, c) ∈ compatiblePairs →
        frameResult s c t = .ok (([c, s.tx.cameraId] ++ P) ++ [checksum ([c, s.tx.cameraId] ++ P)])) ∧
      ((t, c) ∉ compatiblePairs → frameResult s c t = .error (.invalidCommand (allowedMask t) c))

/-- 30_encoding.md R97. -/
def Obligations.ReservedCodesAreRejected : Prop :=
  ∀ b : Byte, ((0x04 ≤ b.toNat ∧ b.toNat ≤ 0xD0) ∨ 0xDC ≤ b.toNat) →
    Command.fromByte b = none ∧
    (∀ F : List Byte, 4 ≤ F.length → byteAt F 0 = b →
      checksum (F.take (F.length - 1)) = byteAt F (F.length - 1) → decode (.rx F) = .error (.unknownCommand b)) ∧
    (∀ (s : State) (t : Variant), Variant.ofTag s.tx.variant = some t → (s.tx.records.select t).legal s.build = true →
      transmit b s = .next (txFailed s (.invalidCommand (allowedMask t) b)))

/-- 30_encoding.md R100–R109: every field of a frame stands at its offset, in its width and type, and the fields,
the two header bytes and the checksum tile the frame. -/
def Obligations.FieldsStandAtTheirTableOffsets : Prop :=
  ∀ (p : Payload) (c cam : Byte),
    p.fields.map Prod.fst = (layoutTable p.variant).map Prod.fst ∧
    List.Forall₂ (fun f row => typeName f.2 = row.2.2.2 ∧
      ((frameOf c cam p.bytes).drop row.2.1).take row.2.2.1 = f.2.bytes ∧ f.2.bytes.length = row.2.2.1)
      p.fields (layoutTable p.variant) ∧
    (frameOf c cam p.bytes).take 2 = [c, cam] ∧
    (frameOf c cam p.bytes).length = ((layoutTable p.variant).map (fun row => row.2.2.1)).sum + 3

/-- 30_encoding.md R94: the lengths, and every payload has its variant's. -/
def Obligations.PayloadLengthsAreFixed : Prop :=
  Variant.all.map Variant.payloadLen = [1, 26, 13, 10, 15, 15, 18, 2, 27, 1] ∧
  (∀ p : Payload, p.bytes.length = p.variant.payloadLen) ∧
  (∀ (p : Payload) (c cam : Byte), (frameOf c cam p.bytes).length = p.variant.payloadLen + 3 ∧
    4 ≤ (frameOf c cam p.bytes).length ∧ (frameOf c cam p.bytes).length ≤ 30)

/-! ### Encoding and decoding -/

/-- Decoding the encoding of a well-formed instruction gives it back: all fifteen constructors, both forms, every
operand the encoding admits. -/
def Obligations.DecodeOfEncodeIsTheInstruction : Prop :=
  ∀ i : Instr, i.wellFormed = true → decode (encode i) = .ok i

/-- Whatever decodes is well formed, and encodes to exactly what was fetched: no bit is dropped. -/
def Obligations.EncodeOfDecodeIsWhatWasFetched : Prop :=
  ∀ (f : Fetched) (i : Instr), decode f = .ok i → i.wellFormed = true ∧ encode i = f

/-- A few words written out from the spec's encodings decode to what they stand for. -/
def Obligations.WrittenWordsDecodeToTheirCommands : Prop :=
  decode (.rx [0x00#8, 0x01#8, 0x00#8, 0x3F#8]) = .ok (.mode00 (.deframe 0x01#8 { command := 0x00#8 })) ∧
  decode (.rx [0xD9#8, 0x01#8, 0x12#8, 0x34#8, 0x20#8]) =
    .ok (.requestEeprom (.deframe 0x01#8 { address := 0x1234#16 })) ∧
  decode (.rx [0xD4#8, 0x01#8, 0x07#8, 0x01#8, 0x02#8, 0x00#8, 0x00#8, 0x01#8, 0xFF#8, 0xFF#8, 0xFF#8,
      0x7F#8, 0xFF#8, 0xFF#8, 0x80#8, 0x00#8, 0x00#8, 0x66#8]) =
    .ok (.firstTarget (.deframe 0x01#8
      { studioId := 7#8, targetNumber := 0x0102#16, targetX := 1#32, targetY := 0xFFFFFFFF#32,
        targetZ := 0x007FFFFF#32, targetFlags := 0xFF800000#32 })) ∧
  decode (.rx [0xD1#8, 0xFF#8, 0x00#8, 0x70#8]) = .error (.lengthMismatch 26 1) ∧
  decode (.rx [0xD0#8, 0x01#8, 0xD1#8, 0x9E#8]) = .error (.unknownCommand 0xD0#8) ∧
  decode (.tx 0xDB#8) = .ok (.diagnosticMode .frame)

/-- The payload round trip and the legality of what decode returns, which the spec derives (42_payloads.md,
section 12). -/
def Obligations.PayloadsRoundTripAndDecodeLegal : Prop :=
  (∀ (b : Config.Build) (p : Payload), p.legal b = true →
    ∃ B, encodePayload b p = .ok B ∧ B.length = p.variant.payloadLen ∧ readPayload p.variant B = p ∧
      unpackError b p = none) ∧
  (∀ (b : Config.Build) (t : Variant) (B : List Byte), B.length = t.payloadLen →
    unpackError b (readPayload t B) = none →
      (readPayload t B).legal b = true ∧ encodePayload b (readPayload t B) = .ok B)

/-- 42_payloads.md R191 and R192: a legal payload never raises; otherwise the first field in table order that raises
gives the error, on encode and on decode. -/
def Obligations.FirstBadFieldInTableOrderIsReported : Prop :=
  ∀ (b : Config.Build) (p : Payload),
    (p.legal b = true → ∃ B, encodePayload b p = .ok B ∧ B.length = p.variant.payloadLen) ∧
    (p.legal b = false → ∃ e, encodePayload b p = .error e) ∧
    (∀ e, encodePayload b p = .error e ↔
      ∃ pre f post, p.fields = pre ++ f :: post ∧ (∀ g ∈ pre, g.2.legal b = true) ∧ f.2.pack b = .error e) ∧
    (∀ e, unpackError b p = some e ↔
      ∃ pre f post, p.fields = pre ++ f :: post ∧ (∀ g ∈ pre, g.2.checkUnpacked b = .ok ()) ∧
        f.2.checkUnpacked b = .error e)

/-- 60_exceptions.md R381: the codes of the eight kinds, success being 0, and where COMPLETE puts them: ERR is bits 5:2
of the status, DONE bit 1, BUSY bit 0 (10_state.md R29). -/
def Obligations.ErrorsHaveTheirCodesInTheStatus : Prop :=
  outcomeCode none = 0#4 ∧ Err.frameTooShort.code = 1#4 ∧ Err.checksumMismatch.code = 2#4 ∧
  (∀ b, (Err.unknownCommand b).code = 3#4) ∧ (∀ x a, (Err.lengthMismatch x a).code = 4#4) ∧
  (∀ f b, (Err.invalidEnumValue f b).code = 5#4) ∧ (∀ v lo hi, (Err.rangeError v lo hi).code = 6#4) ∧
  (∀ x a, (Err.wrongVariant x a).code = 7#4) ∧ (∀ a g, (Err.invalidCommand a g).code = 8#4) ∧
  (∀ (s : State) (e : Err), (rxFailed s e).rx.stat.toNat = 4 * e.code.toNat + 2 ∧
    (txFailed s e).tx.stat.toNat = 4 * e.code.toNat + 2) ∧
  (∀ st : Byte, st.toNat = 64 * (st.extractLsb' 6 2).toNat + 4 * (statErr st).toNat + 2 * (statDone st).toNat +
    (statBusy st).toNat)

/-! ### Received frames: results -/

/-- 43_commands.md R270–R273, received: any of the fifteen command codes in the Poll byte is delivered, any other
byte raises InvalidEnumValue. -/
def Obligations.ModeCommandsReceived : Prop :=
  ∀ (s : State) (cam : Byte) (p : Poll),
    (p.command ∈ commandCodes →
      exec (.mode00 (.deframe cam p)) s =
        .next (delivered s .mode00 cam (.poll p) (checksum [0x00#8, cam, p.command])) ∧
      exec (.mode01 (.deframe cam p)) s =
        .next (delivered s .mode01 cam (.poll p) (checksum [0x01#8, cam, p.command])) ∧
      exec (.mode02 (.deframe cam p)) s =
        .next (delivered s .mode02 cam (.poll p) (checksum [0x02#8, cam, p.command])) ∧
      exec (.mode03 (.deframe cam p)) s =
        .next (delivered s .mode03 cam (.poll p) (checksum [0x03#8, cam, p.command]))) ∧
    (p.command ∉ commandCodes →
      exec (.mode00 (.deframe cam p)) s = .next (rxFailed s (.invalidEnumValue .pollCommand p.command)) ∧
      exec (.mode01 (.deframe cam p)) s = .next (rxFailed s (.invalidEnumValue .pollCommand p.command)) ∧
      exec (.mode02 (.deframe cam p)) s = .next (rxFailed s (.invalidEnumValue .pollCommand p.command)) ∧
      exec (.mode03 (.deframe cam p)) s = .next (rxFailed s (.invalidEnumValue .pollCommand p.command)))

/-- 43_commands.md R274, R276, R281–R283, received: no field of these can raise. -/
def Obligations.PositionParamsEepromCalibrationReceived : Prop :=
  ∀ (s : State) (cam : Byte),
    (∀ p, exec (.positionPoll (.deframe cam p)) s =
      .next (delivered s .positionPoll cam (.positionPoll p) (checksum (0xD1#8 :: cam :: (Payload.positionPoll p).bytes)))) ∧
    (∀ p, exec (.systemParams (.deframe cam p)) s =
      .next (delivered s .systemParams cam (.systemControl p) (checksum (0xD3#8 :: cam :: (Payload.systemControl p).bytes)))) ∧
    (∀ p, exec (.eepromData (.deframe cam p)) s =
      .next (delivered s .eepromData cam (.eepromData p) (checksum (0xD8#8 :: cam :: (Payload.eepromData p).bytes)))) ∧
    (∀ p, exec (.requestEeprom (.deframe cam p)) s =
      .next (delivered s .requestEeprom cam (.eepromDataRequest p)
        (checksum (0xD9#8 :: cam :: (Payload.eepromDataRequest p).bytes)))) ∧
    (∀ p, exec (.cameraCalibration (.deframe cam p)) s =
      .next (delivered s .cameraCalibration cam (.cameraCalibration p)
        (checksum (0xDA#8 :: cam :: (Payload.cameraCalibration p).bytes))))

/-- 43_commands.md R277–R280, received: no field of these can raise. -/
def Obligations.TargetAndImageCommandsReceived : Prop :=
  ∀ (s : State) (cam : Byte),
    (∀ p, exec (.firstTarget (.deframe cam p)) s =
      .next (delivered s .firstTarget cam (.targetData p) (checksum (0xD4#8 :: cam :: (Payload.targetData p).bytes))) ∧
      exec (.nextTarget (.deframe cam p)) s =
      .next (delivered s .nextTarget cam (.targetData p) (checksum (0xD5#8 :: cam :: (Payload.targetData p).bytes)))) ∧
    (∀ p, exec (.firstImage (.deframe cam p)) s =
      .next (delivered s .firstImage cam (.imageData p) (checksum (0xD6#8 :: cam :: (Payload.imageData p).bytes))) ∧
      exec (.nextImage (.deframe cam p)) s =
      .next (delivered s .nextImage cam (.imageData p) (checksum (0xD7#8 :: cam :: (Payload.imageData p).bytes))))

/-- 43_commands.md R275, received, and 42_payloads.md R205: the status code is checked before the dsp byte. -/
def Obligations.SystemStatusReceived : Prop :=
  ∀ (s : State) (cam : Byte) (p : SystemStatus),
    (p.systemStatus ∈ s.build.sysStatusCodes → (∀ c, p.dspStatus = .error c → s.build.isDspError c = true) →
      exec (.systemStatus (.deframe cam p)) s =
        .next (delivered s .systemStatus cam (.systemStatus p)
          (checksum (0xD2#8 :: cam :: (Payload.systemStatus p).bytes)))) ∧
    (p.systemStatus ∉ s.build.sysStatusCodes →
      exec (.systemStatus (.deframe cam p)) s =
        .next (rxFailed s (.invalidEnumValue .sysStatusStatus p.systemStatus))) ∧
    (∀ c, p.systemStatus ∈ s.build.sysStatusCodes → p.dspStatus = .error c → s.build.isDspError c = false →
      exec (.systemStatus (.deframe cam p)) s = .next (rxFailed s (.invalidEnumValue .sysStatusDsp c)))

/-- 43_commands.md R284, received, and 42_payloads.md R219. -/
def Obligations.DiagnosticModeReceived : Prop :=
  ∀ (s : State) (cam : Byte) (p : DiagnosticMode),
    (p.mode ∈ s.build.diagModeCodes →
      exec (.diagnosticMode (.deframe cam p)) s =
        .next (delivered s .diagnosticMode cam (.diagnosticMode p) (checksum [0xDB#8, cam, p.mode]))) ∧
    (p.mode ∉ s.build.diagModeCodes →
      exec (.diagnosticMode (.deframe cam p)) s = .next (rxFailed s (.invalidEnumValue .diagMode p.mode)))

/-! ### Framing requests: results -/

/-- 44_framer.md R300, R305 on the requests that succeed: every command, with every variant that allows it. -/
def Obligations.LegalRequestsAreFramed : Prop :=
  ∀ (s : State) (t : Variant), Variant.ofTag s.tx.variant = some t → (s.tx.records.select t).legal s.build = true →
    ∀ i ∈ frameForms, (t, (command i).toByte) ∈ compatiblePairs →
      exec i s = .next (framed s (frameOf (command i).toByte s.tx.cameraId (s.tx.records.select t).bytes)) ∧
      (frameOf (command i).toByte s.tx.cameraId (s.tx.records.select t).bytes).length = t.payloadLen + 3

/-- 44_framer.md R303 and 60_exceptions.md R394 for FRAME: the payload's error before the command's; `TX_BUF` is left
as it was and `TX_LEN` is 0. -/
def Obligations.BadRequestsReportPayloadThenCommand : Prop :=
  ∀ (s : State) (t : Variant), Variant.ofTag s.tx.variant = some t → ∀ i ∈ frameForms,
    (∀ e, encodePayload s.build (s.tx.records.select t) = .error e →
      exec i s = .next (txFailed s e) ∧
      ((∃ v lo hi, e = .rangeError v lo hi) ∨ (∃ fid v, e = .invalidEnumValue fid v))) ∧
    ((s.tx.records.select t).legal s.build = true → (t, (command i).toByte) ∉ compatiblePairs →
      exec i s = .next (txFailed s (.invalidCommand (allowedMask t) (command i).toByte)))

/-- 43_commands.md R264: SYSTEM_STATUS may be framed with a Poll payload, and such a frame is never deframed. -/
def Obligations.StatusPollRequestIsFramedAndNotDeframed : Prop :=
  (∀ s : State, s.tx.variant = 0#4 → s.tx.records.poll.command ∈ commandCodes →
    exec (.systemStatus .frame) s =
      .next (framed s [0xD2#8, s.tx.cameraId, s.tx.records.poll.command,
        checksum [0xD2#8, s.tx.cameraId, s.tx.records.poll.command]])) ∧
  (∀ cam x : Byte, decode (.rx [0xD2#8, cam, x, checksum [0xD2#8, cam, x]]) = .error (.lengthMismatch 13 1)) ∧
  (∀ (F : List Byte) (i : Instr), decode (.rx F) = .ok i → byteAt F 0 = 0xD2#8 →
    ∃ cam p, i = .systemStatus (.deframe cam p))

/-! ### Frames: what an instruction leaves unchanged -/

/-- The frame of the received form of all fifteen instructions: only STAT, ERRINFO and RX_MSG of the RX channel may
change; it stores to no buffer. -/
def Obligations.ReceivedFramesChangeOnlyTheRxResults : Prop :=
  ∀ (i : Instr) (s s' : State), (receivedOperands i).isSome = true → exec i s = .next s' →
    s'.tx = s.tx ∧ s'.rx.buf = s.rx.buf ∧ s'.rx.len = s.rx.len ∧ s'.build = s.build ∧ s'.host = s.host ∧
    s'.turns = s.turns ∧ s'.results = s.results ∧
    (∀ a, Memory.read s'.tx.buf a = Memory.read s.tx.buf a) ∧ (∀ a, Memory.read s'.rx.buf a = Memory.read s.rx.buf a)

/-- The frame of the frame form of all fifteen instructions: only STAT, ERRINFO, TX_LEN and the bytes of TX_BUF the
frame is stored to may change. The frame is stored at offset 0 (20_memory.md R61). -/
def Obligations.FramingChangesOnlyTheTxResults : Prop :=
  ∀ (i : Instr) (s s' : State) (t : Variant), receivedOperands i = none → Variant.ofTag s.tx.variant = some t →
    exec i s = .next s' →
    s'.rx = s.rx ∧ s'.build = s.build ∧ s'.host = s.host ∧ s'.turns = s.turns ∧ s'.results = s.results ∧
    s'.tx.variant = s.tx.variant ∧ s'.tx.command = s.tx.command ∧ s'.tx.cameraId = s.tx.cameraId ∧
    s'.tx.records = s.tx.records ∧
    (∀ a, Memory.read s'.rx.buf a = Memory.read s.rx.buf a) ∧
    (∀ F, Memory.wf s.tx.buf → frameResult s (command i).toByte t = .ok F →
      (∀ a, F.length ≤ a → Memory.read s'.tx.buf a = Memory.read s.tx.buf a) ∧
      (∀ a, a < F.length → Memory.read s'.tx.buf a = byteAt F a)) ∧
    (∀ e, frameResult s (command i).toByte t = .error e → ∀ a, Memory.read s'.tx.buf a = Memory.read s.tx.buf a)

/-! ### The step -/

/-- When a BUSY channel has the next turn and what it fetches decodes to an instruction, the step is that
instruction's execution, with the turn taken. -/
def Obligations.StepExecutesTheDecodedInstruction : Prop :=
  (∀ (s : State) (F : List Byte) (i : Instr), mover s = .rx → statBusy s.rx.stat = true →
    rxFetch s = some F → decode (.rx F) = .ok i → step s = exec i (afterPick s)) ∧
  (∀ (s : State) (i : Instr), mover s = .tx → statBusy s.tx.stat = true →
    decode (.tx s.tx.command) = .ok i → step s = exec i (afterPick s))

/-- 45_deframer.md R340: the step of a BUSY RX channel is DEFRAME's pseudocode, whatever the buffer holds. -/
def Obligations.RxStepIsTheDeframePseudocode : Prop :=
  ∀ (s : State) (n : Nat) (F P : List Byte), mover s = .rx → statBusy s.rx.stat = true → n = s.rx.len →
    n ≤ s.build.rxMaxLen → F = (List.range n).map (Memory.read s.rx.buf) → P = (F.take (n - 1)).drop 2 →
    step s = .next
      (if n < 4 then rxFailed (afterPick s) .frameTooShort
       else if checksum (F.take (n - 1)) ≠ byteAt F (n - 1) then rxFailed (afterPick s) .checksumMismatch
       else match Command.fromByte (byteAt F 0) with
         | none => rxFailed (afterPick s) (.unknownCommand (byteAt F 0))
         | some c =>
           if n - 3 ≠ (route c).payloadLen then
             rxFailed (afterPick s) (.lengthMismatch (route c).payloadLen (n - 3))
           else match unpackError s.build (readPayload (route c) P) with
             | some e => rxFailed (afterPick s) e
             | none => delivered (afterPick s) c (byteAt F 1) (readPayload (route c) P) (byteAt F (n - 1))) ∧
    (∀ (t : Variant) (e : Err), unpackError s.build (readPayload t P) = some e →
      ∃ fid v, e = .invalidEnumValue fid v)

/-- 44_framer.md R300: the step of a BUSY TX channel is FRAME's pseudocode, whatever byte the command register holds.
The set allowed(t) is held as the mask `allowedMask t`. -/
def Obligations.TxStepIsTheFramePseudocode : Prop :=
  ∀ (s : State) (t : Variant) (c : Byte), mover s = .tx → statBusy s.tx.stat = true →
    Variant.ofTag s.tx.variant = some t → c = s.tx.command →
    step s = .next
      (match encodePayload s.build (s.tx.records.select t) with
       | .error e => txFailed (afterPick s) e
       | .ok P =>
         if (t, c) ∈ compatiblePairs then
           framed (afterPick s) (([c, s.tx.cameraId] ++ P) ++ [checksum ([c, s.tx.cameraId] ++ P)])
         else txFailed (afterPick s) (.invalidCommand (allowedMask t) c)) ∧
    (∀ e, encodePayload s.build (s.tx.records.select t) = .error e →
      (∃ v lo hi, e = .rangeError v lo hi) ∨ (∃ fid v, e = .invalidEnumValue fid v))

/-- 20_memory.md R63: DEFRAME reads no byte at or past RX_LEN, and has a defined result for every RX_LEN and every
content. -/
def Obligations.DeframeReadsOnlyTheFrame : Prop :=
  ∀ s t : State, mover s = .rx → mover t = .rx → statBusy s.rx.stat = true → statBusy t.rx.stat = true →
    s.build = t.build → s.rx.len = t.rx.len → s.rx.len ≤ s.build.rxMaxLen →
    (∀ a, a < s.rx.len → Memory.read s.rx.buf a = Memory.read t.rx.buf a) →
    ∃ s' t', step s = .next s' ∧ step t = .next t' ∧ s'.rx.stat = t'.rx.stat ∧ s'.rx.errInfo = t'.rx.errInfo ∧
      s'.rx.msg = t'.rx.msg ∧
      ((s'.rx.errInfo = none ∧ s'.rx.msg.isSome = true) ∨
       (∃ e, s'.rx.errInfo = some e ∧ e.code ∈ [1#4, 2#4, 3#4, 4#4, 5#4] ∧ s'.rx.msg = none))

/-! ### Whole-block laws -/

/-- The result of FRAME is a function of the variant, the command, the camera id and the selected record alone, which
the spec derives (44_framer.md, the rule before its worked example). -/
def Obligations.FrameIgnoresUnselectedRecords : Prop :=
  ∀ (s u s' u' : State) (t : Variant) (i : Instr), receivedOperands i = none →
    Variant.ofTag s.tx.variant = some t → u.tx.variant = s.tx.variant → u.build = s.build →
    u.tx.cameraId = s.tx.cameraId → u.tx.records.select t = s.tx.records.select t →
    Memory.wf s.tx.buf → Memory.wf u.tx.buf → exec i s = .next s' → exec i u = .next u' →
    s'.tx.stat = u'.tx.stat ∧ s'.tx.errInfo = u'.tx.errInfo ∧ s'.tx.len = u'.tx.len ∧
    readBytes s'.tx.buf 0 s'.tx.len = readBytes u'.tx.buf 0 u'.tx.len

/-- The frame round trip the spec derives (44_framer.md): what FRAME produces for a routed command, DEFRAME decodes to
the same command, camera id, payload and checksum. -/
def Obligations.FramedRequestsDeframeToThemselves : Prop :=
  ∀ (s : State) (c : Command), Variant.ofTag s.tx.variant = some (route c) →
    (s.tx.records.select (route c)).legal s.build = true → Memory.wf s.tx.buf →
    ∃ s' i, exec (requestInstr c) s = .next s' ∧ s'.tx.errInfo = none ∧
      decode (.rx (readBytes s'.tx.buf 0 s'.tx.len)) = .ok i ∧
      ∀ r : State, r.build = s.build →
        exec i r = .next (delivered r c s.tx.cameraId (s.tx.records.select (route c))
          (Memory.read s'.tx.buf (s'.tx.len - 1)))

/-- The deframe-then-frame law the spec derives (45_deframer.md): a message DEFRAME delivers, requested again, frames
to exactly the received bytes. -/
def Obligations.DeframedMessagesFrameToTheSameBytes : Prop :=
  ∀ (F : List Byte) (i : Instr) (s s' q : State) (m : Message), decode (.rx F) = .ok i → exec i s = .next s' →
    s'.rx.msg = some m → q.build = s.build → Variant.ofTag q.tx.variant = some m.payload.variant →
    q.tx.records.select m.payload.variant = m.payload → q.tx.cameraId = m.cameraId → Memory.wf q.tx.buf →
    ∃ q', exec (requestInstr m.command) q = .next q' ∧ q'.tx.errInfo = none ∧ q'.tx.len = F.length ∧
      readBytes q'.tx.buf 0 q'.tx.len = F ∧ m.checksum = byteAt F (F.length - 1)

/-- Single-byte corruption, which the spec derives (45_deframer.md): a frame that decodes, with any one byte changed,
is a checksum mismatch. -/
def Obligations.OneCorruptedByteIsAChecksumMismatch : Prop :=
  ∀ (F : List Byte) (i : Instr) (k : Nat) (v : Byte), decode (.rx F) = .ok i → k < F.length → v ≠ byteAt F k →
    decode (.rx (F.set k v)) = .error .checksumMismatch

/-- 20_memory.md R75: the channels' turns commute, and neither reads or writes the other's registers. -/
def Obligations.ChannelTurnsAreIndependent : Prop :=
  (∀ s a b : State, txTurn s = .next a → rxTurn s = .next b →
    ∃ c, rxTurn a = .next c ∧ txTurn b = .next c ∧ c.tx = a.tx ∧ c.rx = b.rx) ∧
  (∀ (s a : State) (r : RxChannel), txTurn s = .next a →
    a.rx = s.rx ∧ txTurn { s with rx := r } = .next { a with rx := r }) ∧
  (∀ (s b : State) (t : TxChannel), rxTurn s = .next b →
    b.tx = s.tx ∧ rxTurn { s with tx := t } = .next { b with tx := t })

/-! ### The host -/

/-- 10_state.md R38, while the channel is not BUSY: an accepted START changes the channel's status alone; writing 0 has
no effect. (A write of either value while BUSY is refused: BusyChannelsRefuseWritesAndStarts.) -/
def Obligations.StartChangesTheStatusAlone : Prop :=
  (∀ (s : State) (rest : List HostStep) (t : Variant), mover s = .host → s.host = .startTx true :: rest →
    statBusy s.tx.stat = false → Variant.ofTag s.tx.variant = some t →
    step s = .next { afterPick s with host := rest, tx := { s.tx with stat := 0x01#8 } }) ∧
  (∀ (s : State) (rest : List HostStep), mover s = .host → s.host = .startRx true :: rest →
    statBusy s.rx.stat = false →
    step s = .next { afterPick s with host := rest, rx := { s.rx with stat := 0x01#8 } }) ∧
  (∀ (s : State) (rest : List HostStep), mover s = .host →
    ((s.host = .startTx false :: rest ∧ statBusy s.tx.stat = false) ∨
      (s.host = .startRx false :: rest ∧ statBusy s.rx.stat = false)) →
    step s = .next { afterPick s with host := rest })

/-- 10_state.md R41 and 70_reset_and_hazards.md R430: a write of a BUSY channel's request register, and a write of its
START, of 1 or of 0, do not exist as steps. -/
def Obligations.BusyChannelsRefuseWritesAndStarts : Prop :=
  ∀ (s : State) (rest : List HostStep) (w : RegWrite), mover s = .host →
    (s.host = .write w :: rest → isTxWrite w = true → statBusy s.tx.stat = true →
      step s = .refused .writeWhileBusy) ∧
    (s.host = .write w :: rest → isRxWrite w = true → statBusy s.rx.stat = true →
      step s = .refused .writeWhileBusy) ∧
    (∀ v, s.host = .startTx v :: rest → statBusy s.tx.stat = true → step s = .refused .startWhileBusy) ∧
    (∀ v, s.host = .startRx v :: rest → statBusy s.rx.stat = true → step s = .refused .startWhileBusy)

/-- 44_framer.md R301 and 70_reset_and_hazards.md R433: a START with a tag 10..15 and an RX_LEN above RX_MAX_LEN are
refused; for tags 0..9 the variant is the one of that tag. -/
def Obligations.UnnamedVariantsAndOversizedLengthsAreRefused : Prop :=
  (∀ (s : State) (rest : List HostStep), mover s = .host → s.host = .startTx true :: rest →
    statBusy s.tx.stat = false → 10 ≤ s.tx.variant.toNat → step s = .refused .noSuchVariant) ∧
  (∀ (s : State) (rest : List HostStep) (n : Nat), mover s = .host → s.host = .write (.rxLen n) :: rest →
    statBusy s.rx.stat = false → s.build.rxMaxLen < n → step s = .refused .rxLenTooLarge) ∧
  (∀ t : BitVec 4, t.toNat < 10 → ∃ v, Variant.ofTag t = some v ∧ v.tag = t.toNat)

/-- The frame form of an instruction executed with a tag 10..15 in `TX_REQ.variant` is refused. No run reaches such an
execution, since the START is refused (44_framer.md R301); that exec refuses it too is the model's (log entry 10). -/
def Obligations.ExecutingAnUnnamedVariantIsRefused : Prop :=
  ∀ (s : State), 10 ≤ s.tx.variant.toNat → ∀ i ∈ frameForms, exec i s = .refused .noSuchVariant

/-- 10_state.md R37: while the channel is not BUSY a write of its request register takes effect, whatever value of its
type is written, and changes only the register written. `RX_BUF` is written one byte at a time, or whole. -/
def Obligations.WriteChangesOnlyTheRegisterWritten : Prop :=
  ∀ (s : State) (rest : List HostStep) (w : RegWrite), mover s = .host → s.host = .write w :: rest →
    ((isTxWrite w = true ∧ statBusy s.tx.stat = false) ∨ (isRxWrite w = true ∧ statBusy s.rx.stat = false)) →
    writesOneRegister s w → fits s w → Memory.wf s.rx.buf →
    ∃ s', step s = .next s' ∧ s'.build = s.build ∧ s'.host = rest ∧ s'.turns = s.turns.tail ∧
      s'.results = s.results ∧
      ∀ r, readReg s' r = match writtenValue w r with
        | some v => some v
        | none => readReg s r

/-- Reads and ports have no side effect on the block (20_memory.md section 3, 45_deframer.md section 3): the host gets
the value, and nothing else changes. A START strobe reads as 0. That a request register is read while its channel is
BUSY too is the model's (log entry 11), and so is that the value is kept in `results` (log entry 16). -/
def Obligations.ReadsAndPortsHaveNoSideEffect : Prop :=
  (∀ (s : State) (rest : List HostStep) (r : Reg) (v : Value), mover s = .host → s.host = .read r :: rest →
    readReg s r = some v → step s = .next { afterPick s with host := rest, results := v :: s.results }) ∧
  (∀ (s : State) (rest : List HostStep) (p : PortUse) (v : Value), mover s = .host → s.host = .port p :: rest →
    portValue s p = .ok v → step s = .next { afterPick s with host := rest, results := v :: s.results }) ∧
  (∀ s : State, readReg s .txStart = some (.bit false) ∧ readReg s .rxStart = some (.bit false))

/-- The host's `wait` (30_encoding.md, the notation of transactions): the host goes on when the register reads the
value; until then its turn changes nothing. That waiting is a step of its own is the model's choice (log entry 17), and
so is that it may wait on a request register of a BUSY channel (log entry 11). -/
def Obligations.WaitHoldsTheHostUntilTheValueIsRead : Prop :=
  ∀ (s : State) (rest : List HostStep) (r : Reg) (v v' : Value), mover s = .host → s.host = .wait r v :: rest →
    readReg s r = some v' →
    (v' = v → step s = .next { afterPick s with host := rest }) ∧ (v' ≠ v → step s = .next (afterPick s))

/-- The host writes no result register (10_state.md sections 3 and 4), and a status changes by an accepted START
only; so a reported error stays until the channel's next START (60_exceptions.md, section 5). -/
def Obligations.HostNeverChangesResults : Prop :=
  ∀ s s' : State, mover s = .host → step s = .next s' →
    s'.tx.errInfo = s.tx.errInfo ∧ s'.tx.buf = s.tx.buf ∧ s'.tx.len = s.tx.len ∧ s'.rx.errInfo = s.rx.errInfo ∧
    s'.rx.msg = s.rx.msg ∧ s'.build = s.build ∧
    (s'.tx.stat = s.tx.stat ∨
      (s'.tx.stat = 0x01#8 ∧ statBusy s.tx.stat = false ∧ s.host.head? = some (.startTx true))) ∧
    (s'.rx.stat = s.rx.stat ∨
      (s'.rx.stat = 0x01#8 ∧ statBusy s.rx.stat = false ∧ s.host.head? = some (.startRx true)))

/-- 45_deframer.md R350: NARROW, and that its use writes nothing. -/
def Obligations.NarrowReturnsTheRecordOrWrongVariant : Prop :=
  ∀ (s : State) (v : Variant),
    (∀ rest, mover s = .host → s.host = .port (.narrow v) :: rest →
      ∃ s', step s = .next s' ∧ s'.tx = s.tx ∧ s'.rx = s.rx ∧ s'.build = s.build) ∧
    (s.rx.msg = none → portValue s (.narrow v) = .ok (.portError (.wrongVariant v none))) ∧
    (∀ m, s.rx.msg = some m → m.payload.variant = v → portValue s (.narrow v) = .ok (.payload m.payload)) ∧
    (∀ m, s.rx.msg = some m → m.payload.variant ≠ v →
      portValue s (.narrow v) = .ok (.portError (.wrongVariant v (some m.payload.variant))))

/-- 45_deframer.md R355–R357: the test ports give the checksum and the field packer, and their use writes nothing. -/
def Obligations.TestPortsExposeChecksumAndPacker : Prop :=
  ∀ s : State,
    (∀ (p : PortUse) (rest : List HostStep), mover s = .host → s.host = .port p :: rest →
      (∀ B, p = .checksum B → B.length ≤ s.build.chkMaxLen) →
      ∃ s', step s = .next s' ∧ s'.tx = s.tx ∧ s'.rx = s.rx ∧ s'.build = s.build) ∧
    (∀ B : List Byte, B.length ≤ s.build.chkMaxLen → portValue s (.checksum B) = .ok (.byte (checksum B))) ∧
    (∀ w : Word, -8388608 ≤ w.toInt → w.toInt ≤ 8388607 →
      portValue s (.pack24 .signed w) = .ok (.bytes [w.extractLsb' 16 8, w.extractLsb' 8 8, w.extractLsb' 0 8])) ∧
    (∀ w : Word, (w.toInt < -8388608 ∨ 8388607 < w.toInt) →
      portValue s (.pack24 .signed w) = .ok (.portError (.rangeError w.toInt (-8388608) 8388607))) ∧
    (∀ w : Word, w.toNat ≤ 16777215 →
      portValue s (.pack24 .unsigned w) = .ok (.bytes [w.extractLsb' 16 8, w.extractLsb' 8 8, w.extractLsb' 0 8])) ∧
    (∀ w : Word, 16777215 < w.toNat →
      portValue s (.pack24 .unsigned w) = .ok (.portError (.rangeError w.toNat 0 16777215))) ∧
    (∀ b0 b1 b2 : Byte,
      portValue s (.unpack24 .signed b0 b1 b2) = .ok (.word ((b0 ++ b1 ++ b2).signExtend 32)) ∧
      portValue s (.unpack24 .unsigned b0 b1 b2) = .ok (.word ((b0 ++ b1 ++ b2).zeroExtend 32)))

/-! ### Reset and invariants -/

/-- 70_reset_and_hazards.md R420: the reset event puts every register into its reset value, on both channels at once,
whatever ran; the state at reset reads so too; the build stays (R422). -/
def Obligations.ResetPutsEveryRegisterInItsResetValue : Prop :=
  registersReset State.reset ∧
  ∀ s : State, mover s = .reset →
    ∃ s', step s = .next s' ∧ registersReset s' ∧ s'.build = s.build ∧ s'.tx = State.reset.tx ∧ s'.rx = State.reset.rx

/-- What the spec derives of the reset requests (70_reset_and_hazards.md, section 1): a START straight after reset
frames `00 00 00 40`, and the reset RX request deframes to FrameTooShort. -/
def Obligations.ResetRequestsFrameAndFailAsStated : Prop :=
  (exec (.mode00 .frame) State.reset = .next (framed State.reset [0x00#8, 0x00#8, 0x00#8, 0x40#8])) ∧
  rxFetch State.reset = some [] ∧ decode (.rx []) = .error .frameTooShort

/-- The state at reset meets the invariant. -/
def Obligations.ResetMeetsTheMachineInvariant : Prop := State.reset.Inv

/-- Every step keeps the invariant: the status combinations and error codes, the lengths, the buffers' canonical form
and capacity, and that a message in RX_MSG is routed, legal and carries its checksum. The build never changes. -/
def Obligations.EveryStepKeepsTheMachineInvariant : Prop :=
  ∀ s s' : State, s.Inv → step s = .next s' → s'.Inv ∧ s'.build = s.build

/-- 60_exceptions.md R398 in the states the invariant admits: no step faults; a channel's turn and the reset event
always answer a next state; and only a host step is ever refused. That the turn of a channel that is not BUSY answers a
next state, with nothing changed, is the model's choice (log entry 5). -/
def Obligations.TheBlockNeverFaultsOrSticks : Prop :=
  ∀ s : State, s.Inv → Answer.noFault (step s) ∧ (mover s ≠ .host → ∃ s', step s = .next s')

/-- A BUSY channel that has the turn completes in that step: BUSY is clear and DONE set (10_state.md R39). -/
def Obligations.ATurnOfABusyChannelCompletesIt : Prop :=
  ∀ s : State, s.Inv →
    (mover s = .rx → statBusy s.rx.stat = true →
      ∃ s', step s = .next s' ∧ statBusy s'.rx.stat = false ∧ statDone s'.rx.stat = true ∧
        statErr s'.rx.stat = outcomeCode s'.rx.errInfo) ∧
    (mover s = .tx → statBusy s.tx.stat = true →
      ∃ s', step s = .next s' ∧ statBusy s'.tx.stat = false ∧ statDone s'.tx.stat = true ∧
        statErr s'.tx.stat = outcomeCode s'.tx.errInfo)

/-- With no turns left to say who moves, every BUSY channel has completed after two steps at most: the default order
(the model's choice, log entry 4) starves no channel (10_state.md R39). -/
def Obligations.DefaultOrderCompletesBusyChannels : Prop :=
  ∀ s : State, s.Inv → s.turns = [] →
    (statBusy s.rx.stat = true → ∃ s', step s = .next s' ∧ statBusy s'.rx.stat = false ∧
      (statBusy s.tx.stat = true → ∃ s'', step s' = .next s'' ∧ statBusy s''.tx.stat = false ∧
        statBusy s''.rx.stat = false)) ∧
    (statBusy s.rx.stat = false → statBusy s.tx.stat = true →
      ∃ s', step s = .next s' ∧ statBusy s'.tx.stat = false ∧ statBusy s'.rx.stat = false)

/-! ### Host writes the model adds -/

/-- Two forms of a host write that are the model's: a range of bytes of `RX_BUF` written in one step (log entry 13;
30_encoding.md, the notation of transactions, writes a range from offset 0), which changes exactly those bytes; and a
write of a status register, which is a step that changes nothing (log entry 12; 10_state.md, section 5, makes it read
only). -/
def Obligations.RangeAndStatusWritesTakeTheModelsEffect : Prop :=
  (∀ (s : State) (rest : List HostStep) (off : Nat) (B : List Byte), mover s = .host →
    s.host = .write (.rxBuf off B) :: rest → statBusy s.rx.stat = false → off + B.length ≤ s.build.rxMaxLen →
    Memory.wf s.rx.buf →
    ∃ m, step s = .next { afterPick s with host := rest, rx := { s.rx with buf := m } } ∧ Memory.wf m ∧
      (∀ a, Memory.read m a = if off ≤ a ∧ a < off + B.length then byteAt B (a - off) else Memory.read s.rx.buf a)) ∧
  (∀ (s : State) (rest : List HostStep) (v : Byte), mover s = .host →
    (s.host = .write (.txStat v) :: rest ∨ s.host = .write (.rxStat v) :: rest) →
    step s = .next { afterPick s with host := rest })
end

