-- ==== Sys2Proof/Laws/Memory.lean ====
section
/-!
SUPPORT. Buffers: a read after a write, and that every memory operation keeps the canonical form.
-/

namespace Sys2Proof.Machine

open Memory

@[simp] theorem Memory.read_nil (x : Nat) : Memory.read [] x = unlisted := rfl

@[simp] theorem Memory.read_cons (a : Nat) (b : Byte) (m : Memory) (x : Nat) :
    Memory.read ((a, b) :: m) x = if a = x then b else Memory.read m x := rfl

theorem Memory.read_unlisted {m : Memory} {x : Nat} (h : ∀ c ∈ m, c.1 ≠ x) : Memory.read m x = unlisted := by
  induction m with
  | nil => rfl
  | cons c m ih =>
    obtain ⟨a, b⟩ := c
    rw [read_cons, if_neg (h (a, b) (by simp)), ih (fun c hc => h c (by simp [hc]))]

/-- The offsets listed after a write were listed before, or are the offset written. -/
theorem Memory.mem_write {m : Memory} {x : Nat} {v : Byte} {c : Host.Cell} (h : c ∈ Memory.write m x v) :
    c ∈ m ∨ (c = (x, v) ∧ v ≠ unlisted) := by
  induction m with
  | nil =>
    simp only [Memory.write] at h
    split at h <;> simp_all
  | cons d m ih =>
    obtain ⟨a, b⟩ := d
    simp only [Memory.write] at h
    split at h
    · split at h <;> simp_all
      tauto
    · split at h
      · split at h <;> simp_all
        tauto
      · rcases List.mem_cons.1 h with h | h
        · exact .inl (by simp [h])
        · rcases ih h with h | h
          · exact .inl (by simp [h])
          · exact .inr h

/-- A write keeps the canonical form. -/
theorem Memory.wf_write {m : Memory} (h : Memory.wf m) (x : Nat) (v : Byte) : Memory.wf (Memory.write m x v) := by
  refine ⟨?_, fun c hc => ?_⟩
  · obtain ⟨hs, -⟩ := h
    induction m with
    | nil => simp only [Memory.write]; split <;> simp
    | cons d m ih =>
      obtain ⟨a, b⟩ := d
      obtain ⟨ha, hm⟩ := List.pairwise_cons.1 hs
      simp only [Memory.write]
      split
      · rename_i hxa
        split
        · exact hs
        · refine List.pairwise_cons.2 ⟨fun c hc => ?_, hs⟩
          rcases List.mem_cons.1 hc with rfl | hc
          · exact hxa
          · exact lt_trans hxa (ha c hc)
      · rename_i hxa
        split
        · rename_i hx
          subst hx
          split
          · exact hm
          · exact List.pairwise_cons.2 ⟨ha, hm⟩
        · rename_i hx
          refine List.pairwise_cons.2 ⟨fun c hc => ?_, ih hm⟩
          rcases Memory.mem_write hc with hc | ⟨rfl, -⟩
          · exact ha c hc
          · show a < x
            omega
  · rcases Memory.mem_write hc with hc | ⟨rfl, hv⟩
    · exact h.2 c hc
    · exact hv

theorem Memory.wf_nil : Memory.wf [] := ⟨List.Pairwise.nil, by intro c hc; cases hc⟩

/-- A read after a write: the written offset gives the value, every other offset what it gave before. -/
theorem Memory.read_write {m : Memory} (h : m.Pairwise (fun x y => x.1 < y.1)) (x : Nat) (v : Byte) (y : Nat) :
    Memory.read (Memory.write m x v) y = if y = x then v else Memory.read m y := by
  induction m with
  | nil =>
    simp only [Memory.write]
    by_cases hv : v = unlisted
    · by_cases hy : y = x <;> simp [hv, hy]
    · by_cases hy : y = x
      · simp [hv, hy]
      · simp [hv, hy, Ne.symm hy]
  | cons d m ih =>
    obtain ⟨a, b⟩ := d
    obtain ⟨ha, hm⟩ := List.pairwise_cons.1 h
    have hlow : ∀ z, z < a → Memory.read ((a, b) :: m) z = unlisted := fun z hz => by
      refine Memory.read_unlisted fun c hc => ?_
      rcases List.mem_cons.1 hc with rfl | hc
      · exact (by omega : a ≠ z)
      · have : a < c.1 := ha c hc
        omega
    simp only [Memory.write]
    split
    · rename_i hxa
      split
      · rename_i hv
        by_cases hy : y = x
        · rw [if_pos hy, hy, hlow x hxa, hv]
        · rw [if_neg hy]
      · by_cases hy : y = x
        · simp [hy]
        · simp [hy, Ne.symm hy]
    · split
      · rename_i hxa hx
        subst hx
        have hmx : Memory.read m x = unlisted := Memory.read_unlisted fun c hc => by
          have : x < c.1 := ha c hc
          omega
        split
        · rename_i hv
          by_cases hy : y = x
          · rw [if_pos hy, hy, hmx, hv]
          · simp [hy, Ne.symm hy]
        · by_cases hy : y = x
          · simp [hy]
          · simp [hy, Ne.symm hy]
      · rename_i hxa hx
        rw [read_cons, read_cons, ih hm]
        by_cases hy : y = x
        · subst hy
          simp [Ne.symm hx]
        · simp [hy]

/-- Equal bytes at every offset make equal buffers: the form is canonical. -/
theorem Memory.ext_of_read {m n : Memory} (hm : Memory.wf m) (hn : Memory.wf n)
    (h : ∀ x, Memory.read m x = Memory.read n x) : m = n := by
  induction m generalizing n with
  | nil =>
    cases n with
    | nil => rfl
    | cons d n =>
      obtain ⟨a, b⟩ := d
      have := h a
      simp at this
      exact absurd this.symm (hn.2 (a, b) (by simp))
  | cons c m ih =>
    obtain ⟨a, b⟩ := c
    cases n with
    | nil =>
      have := h a
      simp at this
      exact absurd this (hm.2 (a, b) (by simp))
    | cons d n =>
      obtain ⟨a', b'⟩ := d
      obtain ⟨ha, hms⟩ := List.pairwise_cons.1 hm.1
      obtain ⟨ha', hns⟩ := List.pairwise_cons.1 hn.1
      have hmt : ∀ x, x ≤ a → Memory.read m x = unlisted := fun x hx =>
        Memory.read_unlisted fun c hc => by have : a < c.1 := ha c hc; omega
      have hnt : ∀ x, x ≤ a' → Memory.read n x = unlisted := fun x hx =>
        Memory.read_unlisted fun c hc => by have : a' < c.1 := ha' c hc; omega
      have haa : a = a' := by
        rcases lt_trichotomy a a' with hlt | heq | hlt
        · have := h a
          rw [read_cons, if_pos rfl, read_cons, if_neg (by omega), hnt a (by omega)] at this
          exact absurd this (hm.2 (a, b) (by simp))
        · exact heq
        · have := h a'
          rw [read_cons, if_neg (by omega), hmt a' (by omega), read_cons, if_pos rfl] at this
          exact absurd this.symm (hn.2 (a', b') (by simp))
      subst haa
      have hb : b = b' := by simpa using h a
      subst hb
      congr 1
      refine ih ⟨hms, fun c hc => hm.2 c (by simp [hc])⟩ ⟨hns, fun c hc => hn.2 c (by simp [hc])⟩ fun x => ?_
      by_cases hx : a = x
      · subst hx
        rw [hmt a le_rfl, hnt a le_rfl]
      · have := h x
        simpa [hx] using this

/-! ### Byte strings -/

/-- A write of a byte string keeps the canonical form. -/
theorem wf_writeBytes {m : Memory} (h : Memory.wf m) (off : Nat) (v : List Byte) :
    Memory.wf (writeBytes m off v) := by
  induction v generalizing m off with
  | nil => exact h
  | cons b v ih => exact ih (Memory.wf_write h off b) (off + 1)

/-- A write inside the capacity keeps every listed offset below it. -/
theorem within_writeBytes {cap : Nat} {m : Memory} (h : Memory.within cap m) {off : Nat} {v : List Byte}
    (hv : off + v.length ≤ cap) : Memory.within cap (writeBytes m off v) := by
  induction v generalizing m off with
  | nil => exact h
  | cons b v ih =>
    simp only [List.length_cons] at hv
    refine ih (fun c hc => ?_) (by omega)
    rcases Memory.mem_write hc with hc | ⟨rfl, -⟩
    · exact h c hc
    · show off < cap
      omega

/-- A read after a write of a byte string: its bytes at its offsets, every other offset as before. -/
theorem read_writeBytes {m : Memory} (h : Memory.wf m) (off : Nat) (v : List Byte) (x : Nat) :
    Memory.read (writeBytes m off v) x =
      if off ≤ x ∧ x < off + v.length then v.getD (x - off) unlisted else Memory.read m x := by
  induction v generalizing m off with
  | nil => simp [writeBytes]
  | cons b v ih =>
    rw [writeBytes, ih (Memory.wf_write h off b), Memory.read_write h.1]
    by_cases hx : x = off
    · subst hx
      simp
    · by_cases hr : off + 1 ≤ x ∧ x < off + 1 + v.length
      · have h2 : off ≤ x ∧ x < off + (b :: v).length := by simp only [List.length_cons]; omega
        obtain ⟨k, hk⟩ : ∃ k, x - off = k + 1 := ⟨x - off - 1, by omega⟩
        rw [if_pos hr, if_pos h2, hk, List.getD_cons_succ]
        congr 1
        omega
      · have h2 : ¬ (off ≤ x ∧ x < off + (b :: v).length) := by simp only [List.length_cons]; omega
        rw [if_neg hr, if_neg h2, if_neg hx]

@[simp] theorem readBytes_length (m : Memory) (off n : Nat) : (readBytes m off n).length = n := by
  induction n generalizing off with
  | zero => rfl
  | succ n ih => simp [readBytes, ih]

theorem readBytes_getD (m : Memory) (off n k : Nat) (h : k < n) (d : Byte) :
    (readBytes m off n).getD k d = Memory.read m (off + k) := by
  induction n generalizing off k with
  | zero => omega
  | succ n ih =>
    cases k with
    | zero => simp [readBytes]
    | succ k =>
      rw [readBytes, List.getD_cons_succ, ih (off + 1) k (by omega)]
      congr 1
      omega

/-- Reading back what was written. -/
theorem readBytes_writeBytes {m : Memory} (h : Memory.wf m) (off : Nat) (v : List Byte) :
    readBytes (writeBytes m off v) off v.length = v := by
  refine List.ext_getElem (by simp) fun k hk hk' => ?_
  have h1 := readBytes_getD (writeBytes m off v) off v.length k hk' unlisted
  rw [read_writeBytes h, if_pos (by omega)] at h1
  simpa [List.getD_eq_getElem?_getD, hk'] using h1

/-- Two buffers that agree below a bound read the same bytes below it. -/
theorem readBytes_congr {m n : Memory} {off k : Nat} (h : ∀ x, off ≤ x → x < off + k → Memory.read m x = Memory.read n x) :
    readBytes m off k = readBytes n off k := by
  induction k generalizing off with
  | zero => rfl
  | succ k ih =>
    rw [readBytes, readBytes, h off le_rfl (by omega), ih (fun x hx hx' => h x (by omega) (by omega))]

/-! ### MemRead and MemWrite -/

/-- MemRead answers exactly when the access lies inside the buffer. -/
theorem memRead_eq_some {cap : Nat} {m : Memory} {off n : Nat} {v : List Byte} :
    memRead cap m off n = some v ↔ off + n ≤ cap ∧ readBytes m off n = v := by
  simp [memRead]

/-- MemWrite answers exactly when the access lies inside the buffer. -/
theorem memWrite_eq_some {cap : Nat} {m n : Memory} {off : Nat} {v : List Byte} :
    memWrite cap m off v = some n ↔ off + v.length ≤ cap ∧ writeBytes m off v = n := by
  simp [memWrite]

/-- MemWrite keeps the canonical form and the capacity. -/
theorem memWrite_keeps {cap : Nat} {m n : Memory} {off : Nat} {v : List Byte} (h : memWrite cap m off v = some n)
    (hw : Memory.wf m) (hc : Memory.within cap m) : Memory.wf n ∧ Memory.within cap n := by
  obtain ⟨hb, rfl⟩ := memWrite_eq_some.1 h
  exact ⟨wf_writeBytes hw off v, within_writeBytes hc hb⟩

end Sys2Proof.Machine
end

