-- ==== Sys2Proof/Laws/Operands.lean ====
section
/-!
SUPPORT. The ranges and member sets as propositions, and the bytes of each variant of payload.
-/

namespace Sys2Proof.Machine

open Sys2Proof.Config (Build)

theorem s24InRange_iff {w : Word} : s24InRange w = true ↔ -8388608 ≤ w.toInt ∧ w.toInt ≤ 8388607 := by
  simp [s24InRange]

theorem u24InRange_iff {w : Word} : u24InRange w = true ↔ w.toNat ≤ 16777215 := by
  simp [u24InRange]

theorem isSysStatus_iff {b : Build} {v : Byte} : b.isSysStatus v = true ↔ v ∈ b.sysStatusCodes := by
  simp [Build.isSysStatus]

theorem isDiagMode_iff {b : Build} {v : Byte} : b.isDiagMode v = true ↔ v ∈ b.diagModeCodes := by
  simp [Build.isDiagMode]

/-- A DSPError member is a negative code (00_scope.md R6). -/
theorem isDspError_msb {b : Build} {c : Byte} (h : b.isDspError c = true) : c.msb = true := by
  simp only [Build.isDspError, Bool.and_eq_true] at h
  exact h.1

@[simp] theorem bytes24_length (w : Word) : (bytes24 w).length = 3 := rfl

@[simp] theorem packU16_length (h : Half) : (packU16 h).length = 2 := rfl

@[simp] theorem Raw16.toBytes_length (r : Raw16) : r.toBytes.length = 16 := rfl

/-- A legal field is encodable. -/
theorem Field.encodable_of_legal {b : Build} {f : Field} (h : f.legal b = true) : f.encodable = true := by
  cases f with
  | s24 w => exact h
  | u24 w => exact h
  | dsp d =>
    cases d with
    | iterations n => rfl
    | error c => exact isDspError_msb h
  | u16 h => rfl
  | u8 v => rfl
  | flags8 v => rfl
  | enum8 fid v => rfl
  | raw r => rfl

/-- A legal payload is encodable. -/
theorem Payload.encodable_of_legal {b : Build} {p : Payload} (h : p.legal b = true) : p.encodable = true := by
  simp only [Payload.legal, Payload.encodable, List.all_eq_true] at *
  exact fun f hf => Field.encodable_of_legal (h f hf)

/-- The payload slice has as many bytes as its variant's length (30_encoding.md R94). -/
theorem Payload.bytes_length (p : Payload) : p.bytes.length = p.variant.payloadLen := by
  cases p <;> rfl

@[simp] theorem readPayload_variant (t : Variant) (B : List Byte) : (readPayload t B).variant = t := by
  cases t <;> rfl

end Sys2Proof.Machine
end

