-- ==== Sys2Proof/Laws/State.lean ====
section
/-!
SUPPORT. The fields of a state after each named update, so that no proof unfolds a record update.
-/

namespace Sys2Proof.Machine

/-! ### `reportTxError` -/

section
variable (e : Err) (s : State)

@[simp] theorem reportTxError_build : (reportTxError e s).build = s.build := rfl
@[simp] theorem reportTxError_tx : (reportTxError e s).tx = { s.tx with stat := statCompleted (some e), errInfo := some e, len := 0 } := rfl
@[simp] theorem reportTxError_rx : (reportTxError e s).rx = s.rx := rfl
@[simp] theorem reportTxError_host : (reportTxError e s).host = s.host := rfl
@[simp] theorem reportTxError_turns : (reportTxError e s).turns = s.turns := rfl
@[simp] theorem reportTxError_results : (reportTxError e s).results = s.results := rfl

end

/-! ### `reportRxError` -/

section
variable (e : Err) (s : State)

@[simp] theorem reportRxError_build : (reportRxError e s).build = s.build := rfl
@[simp] theorem reportRxError_tx : (reportRxError e s).tx = s.tx := rfl
@[simp] theorem reportRxError_rx : (reportRxError e s).rx = { s.rx with stat := statCompleted (some e), errInfo := some e, msg := none } := rfl
@[simp] theorem reportRxError_host : (reportRxError e s).host = s.host := rfl
@[simp] theorem reportRxError_turns : (reportRxError e s).turns = s.turns := rfl
@[simp] theorem reportRxError_results : (reportRxError e s).results = s.results := rfl

end

/-! ### `acceptTxStart` -/

section
variable (s : State)

@[simp] theorem acceptTxStart_build : (acceptTxStart s).build = s.build := rfl
@[simp] theorem acceptTxStart_tx : (acceptTxStart s).tx = { s.tx with stat := statStarted } := rfl
@[simp] theorem acceptTxStart_rx : (acceptTxStart s).rx = s.rx := rfl
@[simp] theorem acceptTxStart_host : (acceptTxStart s).host = s.host := rfl
@[simp] theorem acceptTxStart_turns : (acceptTxStart s).turns = s.turns := rfl
@[simp] theorem acceptTxStart_results : (acceptTxStart s).results = s.results := rfl

end

/-! ### `acceptRxStart` -/

section
variable (s : State)

@[simp] theorem acceptRxStart_build : (acceptRxStart s).build = s.build := rfl
@[simp] theorem acceptRxStart_tx : (acceptRxStart s).tx = s.tx := rfl
@[simp] theorem acceptRxStart_rx : (acceptRxStart s).rx = { s.rx with stat := statStarted } := rfl
@[simp] theorem acceptRxStart_host : (acceptRxStart s).host = s.host := rfl
@[simp] theorem acceptRxStart_turns : (acceptRxStart s).turns = s.turns := rfl
@[simp] theorem acceptRxStart_results : (acceptRxStart s).results = s.results := rfl

end

/-! ### `completeTx` -/

section
variable (buf : Memory) (F : List Byte) (s : State)

@[simp] theorem completeTx_build : (completeTx buf F s).build = s.build := rfl
@[simp] theorem completeTx_tx : (completeTx buf F s).tx = { s.tx with stat := statCompleted none, errInfo := none, buf := buf, len := F.length } := rfl
@[simp] theorem completeTx_rx : (completeTx buf F s).rx = s.rx := rfl
@[simp] theorem completeTx_host : (completeTx buf F s).host = s.host := rfl
@[simp] theorem completeTx_turns : (completeTx buf F s).turns = s.turns := rfl
@[simp] theorem completeTx_results : (completeTx buf F s).results = s.results := rfl

end

/-! ### `deliver` -/

section
variable (m : Message) (s : State)

@[simp] theorem deliver_build : (deliver m s).build = s.build := rfl
@[simp] theorem deliver_tx : (deliver m s).tx = s.tx := rfl
@[simp] theorem deliver_rx : (deliver m s).rx = { s.rx with stat := statCompleted none, errInfo := none, msg := some m } := rfl
@[simp] theorem deliver_host : (deliver m s).host = s.host := rfl
@[simp] theorem deliver_turns : (deliver m s).turns = s.turns := rfl
@[simp] theorem deliver_results : (deliver m s).results = s.results := rfl

end

/-! ### `resetEvent` -/

section
variable (s : State)

@[simp] theorem resetEvent_build : (resetEvent s).build = s.build := rfl
@[simp] theorem resetEvent_tx : (resetEvent s).tx = TxChannel.reset := rfl
@[simp] theorem resetEvent_rx : (resetEvent s).rx = RxChannel.reset := rfl
@[simp] theorem resetEvent_host : (resetEvent s).host = s.host := rfl
@[simp] theorem resetEvent_turns : (resetEvent s).turns = s.turns := rfl
@[simp] theorem resetEvent_results : (resetEvent s).results = s.results := rfl

end

/-! ### `record` -/

section
variable (v : Value) (s : State)

@[simp] theorem record_build : (record v s).build = s.build := rfl
@[simp] theorem record_tx : (record v s).tx = s.tx := rfl
@[simp] theorem record_rx : (record v s).rx = s.rx := rfl
@[simp] theorem record_host : (record v s).host = s.host := rfl
@[simp] theorem record_turns : (record v s).turns = s.turns := rfl
@[simp] theorem record_results : (record v s).results = v :: s.results := rfl

end

/-! ### `placeFrame` -/

section
variable (F : List Byte) (s : State)

@[simp] theorem placeFrame_build : (placeFrame F s).build = s.build := rfl
@[simp] theorem placeFrame_tx : (placeFrame F s).tx = s.tx := rfl
@[simp] theorem placeFrame_rx : (placeFrame F s).rx = { s.rx with buf := writeBytes s.rx.buf 0 F, len := F.length, stat := statStarted } := rfl
@[simp] theorem placeFrame_host : (placeFrame F s).host = s.host := rfl
@[simp] theorem placeFrame_turns : (placeFrame F s).turns = .rx :: s.turns := rfl
@[simp] theorem placeFrame_results : (placeFrame F s).results = s.results := rfl

end

/-! ### `afterPick` -/

section
variable (s : State)

@[simp] theorem afterPick_build : (afterPick s).build = s.build := rfl
@[simp] theorem afterPick_tx : (afterPick s).tx = s.tx := rfl
@[simp] theorem afterPick_rx : (afterPick s).rx = s.rx := rfl
@[simp] theorem afterPick_host : (afterPick s).host = s.host := rfl
@[simp] theorem afterPick_turns : (afterPick s).turns = s.turns.tail := rfl
@[simp] theorem afterPick_results : (afterPick s).results = s.results := rfl

end

/-! ### Status bytes -/

@[simp] theorem statBusy_statOf (x y : Bool) (e : BitVec 4) : statBusy (statOf x y e) = x := by
  revert x y e; decide

@[simp] theorem statDone_statOf (x y : Bool) (e : BitVec 4) : statDone (statOf x y e) = y := by
  revert x y e; decide

@[simp] theorem statErr_statOf (x y : Bool) (e : BitVec 4) : statErr (statOf x y e) = e := by
  revert x y e; decide

@[simp] theorem reserved_statOf (x y : Bool) (e : BitVec 4) : (statOf x y e).extractLsb' 6 2 = 0#2 := by
  revert x y e; decide

@[simp] theorem statBusy_started : statBusy statStarted = true := statBusy_statOf ..
@[simp] theorem statDone_started : statDone statStarted = false := statDone_statOf ..
@[simp] theorem statErr_started : statErr statStarted = 0#4 := statErr_statOf ..
@[simp] theorem statBusy_completed (o : Option Err) : statBusy (statCompleted o) = false := statBusy_statOf ..
@[simp] theorem statDone_completed (o : Option Err) : statDone (statCompleted o) = true := statDone_statOf ..
@[simp] theorem statErr_completed (o : Option Err) : statErr (statCompleted o) = outcomeCode o := statErr_statOf ..

/-- A status byte made of its fields is legal when its fields are. -/
theorem statLegal_statOf {x y : Bool} {e : BitVec 4} (h : x = true → y = false) (he : y = false → e = 0#4) :
    StatLegal (statOf x y e) :=
  ⟨by simpa using h, by simpa using he, reserved_statOf x y e⟩

theorem statLegal_started : StatLegal statStarted := statLegal_statOf (fun _ => rfl) (fun _ => rfl)

theorem statLegal_completed (o : Option Err) : StatLegal (statCompleted o) :=
  statLegal_statOf (fun h => absurd h Bool.false_ne_true) (fun h => absurd h.symm Bool.false_ne_true)

end Sys2Proof.Machine
end

