-- ==== Sys2Proof/Laws/Ops.lean ====
section
/-!
SUPPORT. What each shared operation can do, said once: later proofs cite these instead of unfolding.
-/

namespace Sys2Proof.Machine

open Sys2Proof

/-! ### Results in order -/

/-- `joinFields` succeeds exactly when every part does, with their concatenation. -/
theorem joinFields_eq_ok {l : List (Except Err (List Byte))} {B : List Byte} :
    joinFields l = .ok B ↔ ∃ parts : List (List Byte), l = parts.map .ok ∧ B = parts.flatten := by
  induction l generalizing B with
  | nil => simp [joinFields, eq_comm]
  | cons x l ih =>
    cases x with
    | error e =>
      simp only [joinFields, reduceCtorEq, false_iff]
      rintro ⟨parts, h, -⟩
      cases parts <;> simp at h
    | ok b =>
      simp only [joinFields]
      constructor
      · intro h
        cases hl : joinFields l with
        | error e => simp [hl, Except.map] at h
        | ok C =>
          simp only [hl, Except.map, Except.ok.injEq] at h
          obtain ⟨parts, rfl, rfl⟩ := ih.1 hl
          exact ⟨b :: parts, rfl, h.symm⟩
      · rintro ⟨parts, h, rfl⟩
        cases parts with
        | nil => simp at h
        | cons p parts =>
          simp only [List.map_cons, List.cons.injEq, Except.ok.injEq] at h
          obtain ⟨rfl, rfl⟩ := h
          rw [ih.2 ⟨parts, rfl, rfl⟩]
          rfl

/-- `joinFields` raises the first error. -/
theorem joinFields_eq_error {l : List (Except Err (List Byte))} {e : Err} :
    joinFields l = .error e ↔
      ∃ (parts : List (List Byte)) (post : List (Except Err (List Byte))), l = parts.map .ok ++ .error e :: post := by
  induction l with
  | nil => simp [joinFields]
  | cons x l ih =>
    cases x with
    | error e' =>
      simp only [joinFields, Except.error.injEq]
      constructor
      · rintro rfl
        exact ⟨[], l, rfl⟩
      · rintro ⟨parts, post, h⟩
        cases parts <;> simp_all
    | ok b =>
      simp only [joinFields]
      constructor
      · intro h
        cases hl : joinFields l with
        | ok C => simp [hl, Except.map] at h
        | error e' =>
          simp only [hl, Except.map, Except.error.injEq] at h
          subst h
          obtain ⟨parts, post, rfl⟩ := ih.1 hl
          exact ⟨b :: parts, post, rfl⟩
      · rintro ⟨parts, post, h⟩
        cases parts with
        | nil => simp at h
        | cons p parts =>
          simp only [List.map_cons, List.cons_append, List.cons.injEq, Except.ok.injEq] at h
          obtain ⟨rfl, rfl⟩ := h
          rw [ih.2 ⟨parts, post, rfl⟩]
          rfl

/-- No check raises exactly when all pass. -/
theorem firstRaised_eq_none {l : List (Except Err Unit)} : firstRaised l = none ↔ ∀ x ∈ l, x = .ok () := by
  induction l with
  | nil => simp [firstRaised]
  | cons x l ih => cases x <;> simp [firstRaised, ih]

/-- The error raised is the first. -/
theorem firstRaised_eq_some {l : List (Except Err Unit)} {e : Err} :
    firstRaised l = some e ↔
      ∃ pre post : List (Except Err Unit), l = pre ++ .error e :: post ∧ ∀ x ∈ pre, x = .ok () := by
  induction l with
  | nil => simp [firstRaised]
  | cons x l ih =>
    cases x with
    | error e' =>
      simp only [firstRaised, Option.some.injEq]
      constructor
      · rintro rfl
        exact ⟨[], l, rfl, by simp⟩
      · rintro ⟨pre, post, h, hp⟩
        cases pre with
        | nil => exact (by simpa using h : e' = e ∧ _).1
        | cons y pre =>
          simp only [List.cons_append, List.cons.injEq] at h
          have := hp y (by simp)
          simp [← h.1] at this
    | ok u =>
      simp only [firstRaised, ih]
      constructor
      · rintro ⟨pre, post, rfl, hp⟩
        exact ⟨.ok () :: pre, post, rfl, by simpa using hp⟩
      · rintro ⟨pre, post, h, hp⟩
        cases pre with
        | nil => simp at h
        | cons y pre =>
          simp only [List.cons_append, List.cons.injEq] at h
          exact ⟨pre, post, h.2, fun x hx => hp x (by simp [hx])⟩

/-! ### Execution -/

/-- Executing an instruction is receiving its operands, or transmitting its command byte. -/
theorem exec_eq (i : Instr) (s : State) :
    exec i s = match receivedOperands i with
      | some (cam, p) => receive (command i) cam p s
      | none => transmit (command i).toByte s := by
  cases i with
  | mode00 f => cases f <;> rfl
  | mode01 f => cases f <;> rfl
  | mode02 f => cases f <;> rfl
  | mode03 f => cases f <;> rfl
  | positionPoll f => cases f <;> rfl
  | systemStatus f => cases f <;> rfl
  | systemParams f => cases f <;> rfl
  | firstTarget f => cases f <;> rfl
  | nextTarget f => cases f <;> rfl
  | firstImage f => cases f <;> rfl
  | nextImage f => cases f <;> rfl
  | eepromData f => cases f <;> rfl
  | requestEeprom f => cases f <;> rfl
  | cameraCalibration f => cases f <;> rfl
  | diagnosticMode f => cases f <;> rfl

/-- The received form of a command executes as a reception. -/
theorem exec_receivedInstr (c : Command) (cam : Byte) (B : List Byte) (s : State) :
    exec (receivedInstr c cam B) s = receive c cam (readPayload (route c) B) s := by
  cases c <;> rfl

/-- The frame form of a command executes as a transmission. -/
theorem exec_requestInstr (c : Command) (s : State) : exec (requestInstr c) s = transmit c.toByte s := by
  cases c <;> rfl

/-- A reception always answers a next state: a delivered message, or a reported error of the payload's codes. -/
theorem receive_cases (c : Command) (cam : Byte) (p : Payload) (s : State) :
    (unpackError s.build p = none ∧ receive c cam p s = .next (deliver (messageOf c cam p) s)) ∨
    (∃ e, unpackError s.build p = some e ∧ receive c cam p s = .next (reportRxError e s)) := by
  unfold receive
  cases h : unpackError s.build p with
  | none => exact .inl ⟨rfl, rfl⟩
  | some e => exact .inr ⟨e, rfl, rfl⟩

/-- All a transmission can do. -/
theorem transmit_cases (c : Byte) (s : State) :
    (Variant.ofTag s.tx.variant = none ∧ transmit c s = .refused .noSuchVariant) ∨
    (∃ t, Variant.ofTag s.tx.variant = some t ∧
      ((∃ e, frameResult s c t = .error e ∧ transmit c s = .next (reportTxError e s)) ∨
       (∃ F, frameResult s c t = .ok F ∧ F.length ≤ txBufCap ∧
         transmit c s = .next (completeTx (writeBytes s.tx.buf 0 F) F s)) ∨
       (∃ F, frameResult s c t = .ok F ∧ txBufCap < F.length ∧ transmit c s = .fault .txBufferBounds))) := by
  unfold transmit
  cases ht : Variant.ofTag s.tx.variant with
  | none => exact .inl ⟨rfl, rfl⟩
  | some t =>
    refine .inr ⟨t, rfl, ?_⟩
    cases hF : frameResult s c t with
    | error e => exact .inl ⟨e, rfl, by simp only [hF]⟩
    | ok F =>
      by_cases hl : F.length ≤ txBufCap
      · exact .inr (.inl ⟨F, rfl, hl, by simp [hF, memWrite, hl]⟩)
      · exact .inr (.inr ⟨F, rfl, by omega, by simp [hF, memWrite, hl]⟩)

/-- What FRAME's result is made of: the payload's error, the command's, or the frame. -/
theorem frameResult_cases (s : State) (c : Byte) (t : Variant) :
    (∃ e, encodePayload s.build (s.tx.records.select t) = .error e ∧ frameResult s c t = .error e) ∨
    (∃ P, encodePayload s.build (s.tx.records.select t) = .ok P ∧ isAllowed t c = true ∧
      frameResult s c t = .ok (frameOf c s.tx.cameraId P)) ∨
    (∃ P, encodePayload s.build (s.tx.records.select t) = .ok P ∧ isAllowed t c = false ∧
      frameResult s c t = .error (.invalidCommand (allowedMask t) c)) := by
  unfold frameResult
  cases hP : encodePayload s.build (s.tx.records.select t) with
  | error e => exact .inl ⟨e, rfl, rfl⟩
  | ok P =>
    cases ha : isAllowed t c with
    | true => exact .inr (.inl ⟨P, rfl, rfl, by simp⟩)
    | false => exact .inr (.inr ⟨P, rfl, rfl, by simp⟩)

/-! ### Turns -/

/-- The TX turn of a BUSY channel transmits its command byte, whether or not it is a command. -/
theorem txTurn_busy {s : State} (h : statBusy s.tx.stat = true) : txTurn s = transmit s.tx.command s := by
  unfold txTurn
  rw [if_pos h, decode]
  cases hc : Command.fromByte s.tx.command with
  | none => rfl
  | some c =>
    have : c.toByte = s.tx.command := by
      simpa using List.find?_some hc
    show exec (requestInstr c) s = _
    rw [exec_requestInstr, this]

theorem txTurn_idle {s : State} (h : statBusy s.tx.stat = false) : txTurn s = .next s := by
  simp [txTurn, h]

theorem rxTurn_idle {s : State} (h : statBusy s.rx.stat = false) : rxTurn s = .next s := by
  simp [rxTurn, h]

/-- All the RX turn of a BUSY channel can do. -/
theorem rxTurn_busy_cases {s : State} (h : statBusy s.rx.stat = true) :
    (s.build.rxMaxLen < s.rx.len ∧ rxTurn s = .fault .rxBufferBounds) ∨
    (s.rx.len ≤ s.build.rxMaxLen ∧
      ((∃ e, decode (.rx (readBytes s.rx.buf 0 s.rx.len)) = .error e ∧ rxTurn s = .next (reportRxError e s)) ∨
       (∃ i, decode (.rx (readBytes s.rx.buf 0 s.rx.len)) = .ok i ∧ rxTurn s = exec i s))) := by
  unfold rxTurn
  rw [if_pos h]
  by_cases hl : s.rx.len ≤ s.build.rxMaxLen
  · refine .inr ⟨hl, ?_⟩
    have hf : rxFetch s = some (readBytes s.rx.buf 0 s.rx.len) := memRead_eq_some.2 ⟨by omega, rfl⟩
    rw [hf]
    cases hd : decode (.rx (readBytes s.rx.buf 0 s.rx.len)) with
    | error e => exact .inl ⟨e, rfl, by simp [hd]⟩
    | ok i => exact .inr ⟨i, rfl, by simp [hd]⟩
  · refine .inl ⟨by omega, ?_⟩
    have hf : rxFetch s = none := by simp [rxFetch, memRead]; omega
    rw [hf]

/-- The step is the turn of the agent that moves, in the state with that turn taken. -/
theorem step_eq (s : State) : step s = takeTurn (mover s) (afterPick s) := by
  obtain ⟨build, tx, rx, host, turns, results⟩ := s
  cases turns <;> rfl

/-! ### The host's turn -/

/-- A host that has no step, or waits, does nothing; otherwise it takes its next step. -/
theorem hostTurn_cases (s : State) :
    (s.host = [] ∧ hostTurn s = .next s) ∨
    (∃ h rest, s.host = h :: rest ∧
      ((hostWaits s h = true ∧ hostTurn s = .next s) ∨
       (hostWaits s h = false ∧ hostTurn s = hostStep h { s with host := rest }))) := by
  unfold hostTurn
  cases hs : s.host with
  | nil => exact .inl ⟨rfl, rfl⟩
  | cons h rest =>
    refine .inr ⟨h, rest, rfl, ?_⟩
    cases hw : hostWaits s h with
    | true => exact .inl ⟨rfl, by simp [hw]⟩
    | false => exact .inr ⟨rfl, by simp [hw]⟩

/-- All a host step can do when it answers a next state: a write of a TX request register, of `RX_BUF`, of `RX_LEN`,
an accepted START, a recorded read, or nothing. -/
theorem hostStep_next {h : HostStep} {s s' : State} (hn : hostStep h s = .next s') :
    s' = s ∨
    (∃ w, h = .write w ∧ statBusy s.tx.stat = false ∧ s' = { s with tx := s.tx.written w }) ∨
    (∃ off B, h = .write (.rxBuf off B) ∧ statBusy s.rx.stat = false ∧ off + B.length ≤ s.build.rxMaxLen ∧
      s' = { s with rx := { s.rx with buf := writeBytes s.rx.buf off B } }) ∨
    (∃ n, h = .write (.rxLen n) ∧ statBusy s.rx.stat = false ∧ n ≤ s.build.rxMaxLen ∧
      s' = { s with rx := { s.rx with len := n } }) ∨
    (∃ t, h = .startTx true ∧ statBusy s.tx.stat = false ∧ Variant.ofTag s.tx.variant = some t ∧
      s' = acceptTxStart s) ∨
    (h = .startRx true ∧ statBusy s.rx.stat = false ∧ s' = acceptRxStart s) ∨
    (∃ v, s' = record v s) := by
  have htx : ∀ w, h = .write w → writeTx w s = .next s' →
      statBusy s.tx.stat = false ∧ s' = { s with tx := s.tx.written w } := by
    intro w _ hw
    unfold writeTx at hw
    split at hw
    · cases hw
    · rename_i hb
      cases hw
      exact ⟨by simpa using hb, rfl⟩
  cases h with
  | write w =>
    cases w with
    | txVariant v => obtain ⟨hb, he⟩ := htx _ rfl hn; exact .inr (.inl ⟨_, rfl, hb, he⟩)
    | txCommand v => obtain ⟨hb, he⟩ := htx _ rfl hn; exact .inr (.inl ⟨_, rfl, hb, he⟩)
    | txCameraId v => obtain ⟨hb, he⟩ := htx _ rfl hn; exact .inr (.inl ⟨_, rfl, hb, he⟩)
    | txWord f v => obtain ⟨hb, he⟩ := htx _ rfl hn; exact .inr (.inl ⟨_, rfl, hb, he⟩)
    | txHalf f v => obtain ⟨hb, he⟩ := htx _ rfl hn; exact .inr (.inl ⟨_, rfl, hb, he⟩)
    | txByte f v => obtain ⟨hb, he⟩ := htx _ rfl hn; exact .inr (.inl ⟨_, rfl, hb, he⟩)
    | txDsp v => obtain ⟨hb, he⟩ := htx _ rfl hn; exact .inr (.inl ⟨_, rfl, hb, he⟩)
    | txData v => obtain ⟨hb, he⟩ := htx _ rfl hn; exact .inr (.inl ⟨_, rfl, hb, he⟩)
    | rxBuf off B =>
      simp only [hostStep, hostWrite, writeRxBuf] at hn
      split at hn
      · cases hn
      · rename_i hb
        split at hn
        · cases hn
        · rename_i buf hm
          cases hn
          obtain ⟨hl, rfl⟩ := memWrite_eq_some.1 hm
          exact .inr (.inr (.inl ⟨off, B, rfl, by simpa using hb, hl, rfl⟩))
    | rxLen n =>
      simp only [hostStep, hostWrite, writeRxLen] at hn
      split at hn
      · cases hn
      · rename_i hb
        split at hn
        · rename_i hl
          cases hn
          exact .inr (.inr (.inr (.inl ⟨n, rfl, by simpa using hb, hl, rfl⟩)))
        · cases hn
    | txStat v => cases hn; exact .inl rfl
    | rxStat v => cases hn; exact .inl rfl
  | startTx v =>
    simp only [hostStep, hostStartTx] at hn
    split at hn
    · cases hn
    · rename_i hb
      cases v with
      | false => cases hn; exact .inl rfl
      | true =>
        simp only [if_true] at hn
        split at hn
        · cases hn
        · rename_i t ht
          cases hn
          exact .inr (.inr (.inr (.inr (.inl ⟨t, rfl, by simpa using hb, ht, rfl⟩))))
  | startRx v =>
    simp only [hostStep, hostStartRx] at hn
    split at hn
    · cases hn
    · rename_i hb
      cases v with
      | false => cases hn; exact .inl rfl
      | true =>
        cases hn
        exact .inr (.inr (.inr (.inr (.inr (.inl ⟨rfl, by simpa using hb, rfl⟩)))))
  | read r =>
    simp only [hostStep] at hn
    split at hn
    · rename_i v _
      cases hn
      exact .inr (.inr (.inr (.inr (.inr (.inr ⟨v, rfl⟩)))))
    · cases hn
  | port p =>
    simp only [hostStep] at hn
    split at hn
    · rename_i v _
      cases hn
      exact .inr (.inr (.inr (.inr (.inr (.inr ⟨v, rfl⟩)))))
    · cases hn
  | wait r v =>
    simp only [hostStep] at hn
    split at hn
    · cases hn; exact .inl rfl
    · cases hn

/-- A host step never faults. -/
theorem hostStep_noFault (h : HostStep) (s : State) : Answer.noFault (hostStep h s) := by
  intro r hr
  cases h with
  | write w =>
    cases w <;> simp only [hostStep, hostWrite, writeTx, writeRxBuf, writeRxLen] at hr <;>
      repeat' split at hr
    all_goals cases hr
  | startTx v =>
    simp only [hostStep, hostStartTx] at hr
    repeat' split at hr
    all_goals cases hr
  | startRx v =>
    simp only [hostStep, hostStartRx] at hr
    repeat' split at hr
    all_goals cases hr
  | read r' => simp only [hostStep] at hr; split at hr <;> cases hr
  | port p => simp only [hostStep] at hr; split at hr <;> cases hr
  | wait r' v => simp only [hostStep] at hr; split at hr <;> cases hr

end Sys2Proof.Machine
end

