-- ==== Sys2Proof/Laws/PerInstr.lean ====
section
/-!
SUPPORT. A statement of every instruction as syntax, one lemma per constructor: the number of bytes of its encoding
is the frame length of the variant its command routes to (30_encoding.md R94), and a request is its command byte.
-/

namespace Sys2Proof.Laws

open Sys2Proof Sys2Proof.Machine

/-- What is said of each instruction's encoding. -/
def EncodedLength.Statement (i : Instr) : Prop :=
  match encode i with
  | .rx F => F.length = (route (command i)).payloadLen + 3 ∧ byteAt F 0 = (command i).toByte
  | .tx c => c = (command i).toByte

theorem EncodedLength.mode00 (f : Form _) : EncodedLength.Statement (.mode00 f) := by
  cases f
  · exact ⟨rfl, rfl⟩
  · rfl

theorem EncodedLength.mode01 (f : Form _) : EncodedLength.Statement (.mode01 f) := by
  cases f
  · exact ⟨rfl, rfl⟩
  · rfl

theorem EncodedLength.mode02 (f : Form _) : EncodedLength.Statement (.mode02 f) := by
  cases f
  · exact ⟨rfl, rfl⟩
  · rfl

theorem EncodedLength.mode03 (f : Form _) : EncodedLength.Statement (.mode03 f) := by
  cases f
  · exact ⟨rfl, rfl⟩
  · rfl

theorem EncodedLength.positionPoll (f : Form _) : EncodedLength.Statement (.positionPoll f) := by
  cases f
  · exact ⟨rfl, rfl⟩
  · rfl

theorem EncodedLength.systemStatus (f : Form _) : EncodedLength.Statement (.systemStatus f) := by
  cases f
  · exact ⟨rfl, rfl⟩
  · rfl

theorem EncodedLength.systemParams (f : Form _) : EncodedLength.Statement (.systemParams f) := by
  cases f
  · exact ⟨rfl, rfl⟩
  · rfl

theorem EncodedLength.firstTarget (f : Form _) : EncodedLength.Statement (.firstTarget f) := by
  cases f
  · exact ⟨rfl, rfl⟩
  · rfl

theorem EncodedLength.nextTarget (f : Form _) : EncodedLength.Statement (.nextTarget f) := by
  cases f
  · exact ⟨rfl, rfl⟩
  · rfl

theorem EncodedLength.firstImage (f : Form _) : EncodedLength.Statement (.firstImage f) := by
  cases f
  · exact ⟨rfl, rfl⟩
  · rfl

theorem EncodedLength.nextImage (f : Form _) : EncodedLength.Statement (.nextImage f) := by
  cases f
  · exact ⟨rfl, rfl⟩
  · rfl

theorem EncodedLength.eepromData (f : Form _) : EncodedLength.Statement (.eepromData f) := by
  cases f
  · exact ⟨rfl, rfl⟩
  · rfl

theorem EncodedLength.requestEeprom (f : Form _) : EncodedLength.Statement (.requestEeprom f) := by
  cases f
  · exact ⟨rfl, rfl⟩
  · rfl

theorem EncodedLength.cameraCalibration (f : Form _) : EncodedLength.Statement (.cameraCalibration f) := by
  cases f
  · exact ⟨rfl, rfl⟩
  · rfl

theorem EncodedLength.diagnosticMode (f : Form _) : EncodedLength.Statement (.diagnosticMode f) := by
  cases f
  · exact ⟨rfl, rfl⟩
  · rfl

end Sys2Proof.Laws
end

