-- ==== Sys2Proof/Tests/Slice0.lean ====
section
/-!
SUPPORT. The model's own tests. Expected results are the vectors of spec/95_test_vectors.md, named by their row, or
written out from 30_encoding.md; then a witness for the hypotheses of each statement.
-/

namespace Sys2Proof.Tests

open Sys2Proof Sys2Proof.Machine Sys2Proof.Statements

set_option maxRecDepth 20000

/-! ### Small states -/

/-- A build with two status codes, two DSPError codes (0x80 and 0xFF) and two diagnostic modes. -/
def testBuild : Config.Build :=
  { sysStatusCodes := [0x00#8, 0x42#8], dspErrorCodes := [0x7F#7], dspInternalError := 0x00#7,
    diagModeCodes := [0x05#8, 0x06#8], rxExtra := 2, chkExtra := 0 }

/-- The state at reset, with that build. -/
def idle : State := { State.reset with build := testBuild }

/-- The frame `F` in the RX channel, started, with the RX channel to move. -/
def receiving (F : List Byte) : State := placeFrame F idle

/-- A started framing request, with the TX channel to move. -/
def requesting (tag : BitVec 4) (c cam : Byte) (r : TxRecords) : State :=
  { idle with
    tx := { TxChannel.reset with variant := tag, command := c, cameraId := cam, records := r, stat := 0x01#8 }
    turns := [.tx] }

/-- The state with a frame left in the TX channel by an earlier FRAME. -/
def withTxBuf (m : Memory) (n : Nat) (s : State) : State := { s with tx := { s.tx with buf := m, len := n } }

/-- A host with steps to take, and the host to move. -/
def hosting (hs : List HostStep) : State := { idle with host := hs, turns := [.host] }

/-- Does the answer go on to a state with this property? -/
def goesTo (a : Answer) (p : State → Bool) : Bool :=
  match a with
  | .next s => p s
  | .fault _ => false
  | .refused _ => false

/-- Has FRAME left this frame in the TX channel? -/
def framedAs (F : List Byte) (s : State) : Bool :=
  s.tx.stat == 0x02#8 && decide (s.tx.errInfo = none) && s.tx.len == F.length && readBytes s.tx.buf 0 s.tx.len == F

/-- Has FRAME reported this error? -/
def txError (stat : Byte) (e : Err) (s : State) : Bool :=
  s.tx.stat == stat && decide (s.tx.errInfo = some e) && s.tx.len == 0

/-- Has DEFRAME delivered this message? -/
def holds (m : Message) (s : State) : Bool :=
  s.rx.stat == 0x02#8 && decide (s.rx.errInfo = none) && decide (s.rx.msg = some m)

/-- Has DEFRAME reported this error? -/
def rxError (stat : Byte) (e : Err) (s : State) : Bool :=
  s.rx.stat == stat && decide (s.rx.errInfo = some e) && decide (s.rx.msg = none)

/-! ### The records of the vectors -/

def zeros : TxRecords := TxRecords.reset

/-- S3: pitch −1000, focus 0xAABBCC. -/
def recPosition : PositionPoll := { zeros.positionPoll with pitch := 0xFFFFFC18#32, focus := 0x00AABBCC#32 }

/-- Y6 with s = 0x42. -/
def recStatus : SystemStatus :=
  { switchFlags := 0x81#8, ledFlags := 0x03#8, systemStatus := 0x42#8, fwVersion0 := 1#8, fwVersion1 := 2#8,
    fwVersion2 := 3#8, dspStatus := .iterations 5#7, targetsSeen := 9#8, targetsIdentified := 8#8,
    targetsUsed := 7#8, rmsError := 0x00000102#32 }

/-- Y8. -/
def recControl : SystemControl :=
  { param0 := 1#8, param1 := 2#8, param2 := 3#8, param3 := 4#8, param4 := 5#8, param5 := 6#8, param6 := 7#8,
    param7 := 8#8, param8 := 9#8, param9 := 10#8 }

/-- Y9. -/
def recTarget : TargetData :=
  { studioId := 7#8, targetNumber := 0x0102#16, targetX := 1#32, targetY := 0xFFFFFFFF#32, targetZ := 0x007FFFFF#32,
    targetFlags := 0xFF800000#32 }

/-- Y10. -/
def recImage : ImageData :=
  { targetIndex := 3#8, targetNum := 0xBEEF#16, targetX := 100#32, targetY := 0xFFFFFF9C#32, xError := 0#32,
    yError := 0xFFFFFFFE#32 }

/-- Y11. -/
def recEeprom : EepromData :=
  { address := 0x1234#16
    data := { d0 := 0#8, d1 := 1#8, d2 := 2#8, d3 := 3#8, d4 := 4#8, d5 := 5#8, d6 := 6#8, d7 := 7#8, d8 := 8#8,
              d9 := 9#8, d10 := 10#8, d11 := 11#8, d12 := 12#8, d13 := 13#8, d14 := 14#8, d15 := 15#8 } }

/-- Y14. -/
def recCalibration : CameraCalibration :=
  { cal0 := 0xFFFFFFFC#32, cal1 := 0xFFFFFFFD#32, cal2 := 0xFFFFFFFE#32, cal3 := 0xFFFFFFFF#32, cal4 := 0#32,
    cal5 := 1#32, cal6 := 2#32, cal7 := 3#32, cal8 := 4#32 }

/-- All the records above side by side. -/
def vectors : TxRecords :=
  { poll := { command := 0x00#8 }, positionPoll := recPosition, systemStatus := recStatus, systemControl := recControl,
    targetData := recTarget, imageData := recImage, eepromData := recEeprom, eepromDataRequest := { address := 0x1234#16 },
    cameraCalibration := recCalibration, diagnosticMode := { mode := 0x05#8 } }

/-! ### WellFormed refuses -/

/-- 2^23 is above S24_MAX (40_field_packer.md R140). -/
theorem test_wf_s24_above : Instr.wellFormed (.cameraCalibration (.deframe 0x01#8
    { recCalibration with cal8 := 0x00800000#32 })) = false := by decide

/-- −2^23 − 1 is below S24_MIN. -/
theorem test_wf_s24_below : Instr.wellFormed (.firstTarget (.deframe 0x01#8
    { recTarget with targetFlags := 0xFF7FFFFF#32 })) = false := by decide

/-- 2^24 is above U24_MAX. -/
theorem test_wf_u24_above : Instr.wellFormed (.positionPoll (.deframe 0x01#8
    { recPosition with zoom := 0x01000000#32 })) = false := by decide

/-- A dsp error code is negative (40_field_packer.md R150). -/
theorem test_wf_dsp_code : Instr.wellFormed (.systemStatus (.deframe 0x01#8
    { recStatus with dspStatus := .error 0x05#8 })) = false := by decide

theorem test_wf_accepts : Instr.wellFormed (.systemStatus (.deframe 0x01#8
    { recStatus with dspStatus := .error 0x80#8, rmsError := 0x00FFFFFF#32 })) = true := by decide

/-! ### Decoding: a word of every constructor, both forms (rows C1 to C16) -/

/-- C1. -/
theorem test_decode_mode00 :
    decode (.rx [0x00#8, 0x01#8, 0x00#8, 0x3F#8]) =
      .ok (.mode00 (.deframe 0x01#8 { command := 0x00#8 })) := by rfl

/-- C2. -/
theorem test_decode_mode01 :
    decode (.rx [0x01#8, 0x01#8, 0x01#8, 0x3D#8]) =
      .ok (.mode01 (.deframe 0x01#8 { command := 0x01#8 })) := by rfl

/-- C3. -/
theorem test_decode_mode02 :
    decode (.rx [0x02#8, 0x01#8, 0x02#8, 0x3B#8]) =
      .ok (.mode02 (.deframe 0x01#8 { command := 0x02#8 })) := by rfl

/-- C4. -/
theorem test_decode_mode03 :
    decode (.rx [0x03#8, 0x01#8, 0x03#8, 0x39#8]) =
      .ok (.mode03 (.deframe 0x01#8 { command := 0x03#8 })) := by rfl

/-- C5, the frame of S3. -/
theorem test_decode_positionPoll :
    decode (.rx [0xD1#8, 0xFF#8, 0xFF#8, 0xFC#8, 0x18#8, 0x00#8, 0x00#8, 0x00#8, 0x00#8, 0x00#8, 0x00#8, 0x00#8, 0x00#8,
      0x00#8, 0x00#8, 0x00#8, 0x00#8, 0x00#8, 0x00#8, 0x00#8, 0x00#8, 0x00#8, 0x00#8, 0xAA#8, 0xBB#8, 0xCC#8,
      0x00#8, 0x00#8, 0x2C#8]) =
      .ok (.positionPoll (.deframe 0xFF#8 recPosition)) := by rfl

/-- C7 with s = 0x42, c = 0xC3 − s = 0x81. -/
theorem test_decode_systemStatus :
    decode (.rx [0xD2#8, 0x01#8, 0x81#8, 0x03#8, 0x42#8, 0x01#8, 0x02#8, 0x03#8, 0x05#8, 0x09#8, 0x08#8, 0x07#8, 0x00#8,
      0x01#8, 0x02#8, 0x81#8]) =
      .ok (.systemStatus (.deframe 0x01#8 recStatus)) := by rfl

/-- C8. -/
theorem test_decode_systemParams :
    decode (.rx [0xD3#8, 0x01#8, 0x01#8, 0x02#8, 0x03#8, 0x04#8, 0x05#8, 0x06#8, 0x07#8, 0x08#8, 0x09#8, 0x0A#8, 0x35#8]) =
      .ok (.systemParams (.deframe 0x01#8 recControl)) := by rfl

/-- C9. -/
theorem test_decode_firstTarget :
    decode (.rx [0xD4#8, 0x01#8, 0x07#8, 0x01#8, 0x02#8, 0x00#8, 0x00#8, 0x01#8, 0xFF#8, 0xFF#8, 0xFF#8, 0x7F#8, 0xFF#8,
      0xFF#8, 0x80#8, 0x00#8, 0x00#8, 0x66#8]) =
      .ok (.firstTarget (.deframe 0x01#8 recTarget)) := by rfl

/-- C10. -/
theorem test_decode_nextTarget :
    decode (.rx [0xD5#8, 0x01#8, 0x07#8, 0x01#8, 0x02#8, 0x00#8, 0x00#8, 0x01#8, 0xFF#8, 0xFF#8, 0xFF#8, 0x7F#8, 0xFF#8,
      0xFF#8, 0x80#8, 0x00#8, 0x00#8, 0x65#8]) =
      .ok (.nextTarget (.deframe 0x01#8 recTarget)) := by rfl

/-- C11. -/
theorem test_decode_firstImage :
    decode (.rx [0xD6#8, 0x01#8, 0x03#8, 0xBE#8, 0xEF#8, 0x00#8, 0x00#8, 0x64#8, 0xFF#8, 0xFF#8, 0x9C#8, 0x00#8, 0x00#8,
      0x00#8, 0xFF#8, 0xFF#8, 0xFE#8, 0xBF#8]) =
      .ok (.firstImage (.deframe 0x01#8 recImage)) := by rfl

/-- C12. -/
theorem test_decode_nextImage :
    decode (.rx [0xD7#8, 0x01#8, 0x03#8, 0xBE#8, 0xEF#8, 0x00#8, 0x00#8, 0x64#8, 0xFF#8, 0xFF#8, 0x9C#8, 0x00#8, 0x00#8,
      0x00#8, 0xFF#8, 0xFF#8, 0xFE#8, 0xBE#8]) =
      .ok (.nextImage (.deframe 0x01#8 recImage)) := by rfl

/-- C13. -/
theorem test_decode_eepromData :
    decode (.rx [0xD8#8, 0x01#8, 0x12#8, 0x34#8, 0x00#8, 0x01#8, 0x02#8, 0x03#8, 0x04#8, 0x05#8, 0x06#8, 0x07#8, 0x08#8,
      0x09#8, 0x0A#8, 0x0B#8, 0x0C#8, 0x0D#8, 0x0E#8, 0x0F#8, 0xA9#8]) =
      .ok (.eepromData (.deframe 0x01#8 recEeprom)) := by rfl

/-- C14. -/
theorem test_decode_requestEeprom :
    decode (.rx [0xD9#8, 0x01#8, 0x12#8, 0x34#8, 0x20#8]) =
      .ok (.requestEeprom (.deframe 0x01#8 { address := 0x1234#16 })) := by rfl

/-- C15. -/
theorem test_decode_cameraCalibration :
    decode (.rx [0xDA#8, 0x01#8, 0xFF#8, 0xFF#8, 0xFC#8, 0xFF#8, 0xFF#8, 0xFD#8, 0xFF#8, 0xFF#8, 0xFE#8, 0xFF#8, 0xFF#8,
      0xFF#8, 0x00#8, 0x00#8, 0x00#8, 0x00#8, 0x00#8, 0x01#8, 0x00#8, 0x00#8, 0x02#8, 0x00#8, 0x00#8, 0x03#8,
      0x00#8, 0x00#8, 0x04#8, 0x6D#8]) =
      .ok (.cameraCalibration (.deframe 0x01#8 recCalibration)) := by rfl

/-- C16 with m = 0x05, c = 0x64 − m = 0x5F. -/
theorem test_decode_diagnosticMode :
    decode (.rx [0xDB#8, 0x01#8, 0x05#8, 0x5F#8]) =
      .ok (.diagnosticMode (.deframe 0x01#8 { mode := 0x05#8 })) := by rfl

/-- 30_encoding.md R95: the command bytes of requests. -/
theorem test_decode_requests :
    frameForms.map (fun i => decide (decode (.tx (command i).toByte) = .ok i)) = List.replicate 15 true ∧
    [0x00, 0x01, 0x02, 0x03, 0xD1, 0xD2, 0xD3, 0xD4, 0xD5, 0xD6, 0xD7, 0xD8, 0xD9, 0xDA, 0xDB].map
      (fun n => decode (.tx (BitVec.ofNat 8 n))) = frameForms.map .ok := by decide

/-- R1 and S2. -/
theorem test_reject_R1 : decode (.rx []) =
    .error .frameTooShort := by rfl

/-- R2. -/
theorem test_reject_R2 : decode (.rx [0xD1#8, 0xFF#8, 0x00#8]) =
    .error .frameTooShort := by rfl

/-- R3. -/
theorem test_reject_R3 : decode (.rx [0xD1#8, 0xFF#8, 0x00#8, 0x00#8]) =
    .error .checksumMismatch := by rfl

/-- R4. -/
theorem test_reject_R4 : decode (.rx [0xD1#8, 0xFF#8, 0x00#8, 0x70#8]) =
    .error (.lengthMismatch 26 1) := by rfl

/-- R5. -/
theorem test_reject_R5 : decode (.rx [0x04#8, 0x00#8, 0x00#8, 0x3C#8]) =
    .error (.unknownCommand 0x04#8) := by rfl

/-- R7. -/
theorem test_reject_R7 : decode (.rx [0x04#8, 0x00#8, 0x00#8, 0x00#8]) =
    .error .checksumMismatch := by rfl

/-- R9. -/
theorem test_reject_R9 : decode (.rx [0xD1#8, 0xFF#8, 0xFF#8, 0xFC#8, 0x18#8]) =
    .error .checksumMismatch := by rfl

/-- R10. -/
theorem test_reject_R10 : decode (.rx [0x00#8, 0x01#8, 0x00#8, 0x3F#8, 0x01#8, 0x01#8, 0x01#8, 0x3D#8]) =
    .error .checksumMismatch := by rfl

/-- R11. -/
theorem test_reject_R11 : decode (.rx [0xD1#8, 0x00#8, 0x00#8, 0x00#8, 0x00#8, 0x00#8, 0x00#8, 0x00#8, 0x00#8, 0x00#8, 0x00#8, 0x00#8, 0x00#8,
    0x00#8, 0x00#8, 0x00#8, 0x00#8, 0x00#8, 0x00#8, 0x00#8, 0x00#8, 0x00#8, 0x00#8, 0x00#8, 0x00#8, 0x00#8,
    0x00#8, 0x00#8, 0x00#8, 0x00#8, 0x6F#8]) =
    .error (.lengthMismatch 26 28) := by rfl

/-- C6. -/
theorem test_reject_C6 : decode (.rx [0xD2#8, 0x01#8, 0xD2#8, 0x9B#8]) =
    .error (.lengthMismatch 13 1) := by rfl

/-- The table's eight bits of SYSTEM_STATUS are completed to the all-zero frame with its checksum (log entry 2). -/
theorem test_table_word :
    decodeTableWord 8 0xD2 = some (.systemStatus (.deframe 0x00#8 zeros.systemStatus)) := by rfl

theorem test_table_word_reserved : decodeTableWord 8 0xD0 = none := by rfl

/-! ### One step of each instruction, framing and receiving (rows C1 to C16) -/

theorem test_frame_mode00 : goesTo (step (requesting 0#4 0x00#8 0x01#8 { vectors with poll := { command := 0x00#8 } }))
    (framedAs [0x00#8, 0x01#8, 0x00#8, 0x3F#8]) = true := by decide

theorem test_receive_mode00 :
    goesTo (step (receiving [0x00#8, 0x01#8, 0x00#8, 0x3F#8]))
      (holds { command := .mode00, cameraId := 0x01#8, payload := .poll { command := 0x00#8 }, checksum := 0x3F#8 }) = true := by
  decide

theorem test_frame_mode01 : goesTo (step (requesting 0#4 0x01#8 0x01#8 { vectors with poll := { command := 0x01#8 } }))
    (framedAs [0x01#8, 0x01#8, 0x01#8, 0x3D#8]) = true := by decide

theorem test_receive_mode01 :
    goesTo (step (receiving [0x01#8, 0x01#8, 0x01#8, 0x3D#8]))
      (holds { command := .mode01, cameraId := 0x01#8, payload := .poll { command := 0x01#8 }, checksum := 0x3D#8 }) = true := by
  decide

theorem test_frame_mode02 : goesTo (step (requesting 0#4 0x02#8 0x01#8 { vectors with poll := { command := 0x02#8 } }))
    (framedAs [0x02#8, 0x01#8, 0x02#8, 0x3B#8]) = true := by decide

theorem test_receive_mode02 :
    goesTo (step (receiving [0x02#8, 0x01#8, 0x02#8, 0x3B#8]))
      (holds { command := .mode02, cameraId := 0x01#8, payload := .poll { command := 0x02#8 }, checksum := 0x3B#8 }) = true := by
  decide

theorem test_frame_mode03 : goesTo (step (requesting 0#4 0x03#8 0x01#8 { vectors with poll := { command := 0x03#8 } }))
    (framedAs [0x03#8, 0x01#8, 0x03#8, 0x39#8]) = true := by decide

theorem test_receive_mode03 :
    goesTo (step (receiving [0x03#8, 0x01#8, 0x03#8, 0x39#8]))
      (holds { command := .mode03, cameraId := 0x01#8, payload := .poll { command := 0x03#8 }, checksum := 0x39#8 }) = true := by
  decide

theorem test_frame_positionPoll : goesTo (step (requesting 1#4 0xD1#8 0xFF#8 vectors))
    (framedAs [0xD1#8, 0xFF#8, 0xFF#8, 0xFC#8, 0x18#8, 0x00#8, 0x00#8, 0x00#8, 0x00#8, 0x00#8, 0x00#8, 0x00#8, 0x00#8,
      0x00#8, 0x00#8, 0x00#8, 0x00#8, 0x00#8, 0x00#8, 0x00#8, 0x00#8, 0x00#8, 0x00#8, 0xAA#8, 0xBB#8, 0xCC#8,
      0x00#8, 0x00#8, 0x2C#8]) = true := by decide

theorem test_receive_positionPoll :
    goesTo (step (receiving [0xD1#8, 0xFF#8, 0xFF#8, 0xFC#8, 0x18#8, 0x00#8, 0x00#8, 0x00#8, 0x00#8, 0x00#8, 0x00#8, 0x00#8, 0x00#8,
      0x00#8, 0x00#8, 0x00#8, 0x00#8, 0x00#8, 0x00#8, 0x00#8, 0x00#8, 0x00#8, 0x00#8, 0xAA#8, 0xBB#8, 0xCC#8,
      0x00#8, 0x00#8, 0x2C#8]))
      (holds { command := .positionPoll, cameraId := 0xFF#8, payload := .positionPoll recPosition, checksum := 0x2C#8 }) = true := by
  decide

theorem test_frame_systemStatus : goesTo (step (requesting 2#4 0xD2#8 0x01#8 vectors))
    (framedAs [0xD2#8, 0x01#8, 0x81#8, 0x03#8, 0x42#8, 0x01#8, 0x02#8, 0x03#8, 0x05#8, 0x09#8, 0x08#8, 0x07#8, 0x00#8,
      0x01#8, 0x02#8, 0x81#8]) = true := by decide

theorem test_receive_systemStatus :
    goesTo (step (receiving [0xD2#8, 0x01#8, 0x81#8, 0x03#8, 0x42#8, 0x01#8, 0x02#8, 0x03#8, 0x05#8, 0x09#8, 0x08#8, 0x07#8, 0x00#8,
      0x01#8, 0x02#8, 0x81#8]))
      (holds { command := .systemStatus, cameraId := 0x01#8, payload := .systemStatus recStatus, checksum := 0x81#8 }) = true := by
  decide

theorem test_frame_systemParams : goesTo (step (requesting 3#4 0xD3#8 0x01#8 vectors))
    (framedAs [0xD3#8, 0x01#8, 0x01#8, 0x02#8, 0x03#8, 0x04#8, 0x05#8, 0x06#8, 0x07#8, 0x08#8, 0x09#8, 0x0A#8, 0x35#8]) = true := by decide

theorem test_receive_systemParams :
    goesTo (step (receiving [0xD3#8, 0x01#8, 0x01#8, 0x02#8, 0x03#8, 0x04#8, 0x05#8, 0x06#8, 0x07#8, 0x08#8, 0x09#8, 0x0A#8, 0x35#8]))
      (holds { command := .systemParams, cameraId := 0x01#8, payload := .systemControl recControl, checksum := 0x35#8 }) = true := by
  decide

theorem test_frame_firstTarget : goesTo (step (requesting 4#4 0xD4#8 0x01#8 vectors))
    (framedAs [0xD4#8, 0x01#8, 0x07#8, 0x01#8, 0x02#8, 0x00#8, 0x00#8, 0x01#8, 0xFF#8, 0xFF#8, 0xFF#8, 0x7F#8, 0xFF#8,
      0xFF#8, 0x80#8, 0x00#8, 0x00#8, 0x66#8]) = true := by decide

theorem test_receive_firstTarget :
    goesTo (step (receiving [0xD4#8, 0x01#8, 0x07#8, 0x01#8, 0x02#8, 0x00#8, 0x00#8, 0x01#8, 0xFF#8, 0xFF#8, 0xFF#8, 0x7F#8, 0xFF#8,
      0xFF#8, 0x80#8, 0x00#8, 0x00#8, 0x66#8]))
      (holds { command := .firstTarget, cameraId := 0x01#8, payload := .targetData recTarget, checksum := 0x66#8 }) = true := by
  decide

theorem test_frame_nextTarget : goesTo (step (requesting 4#4 0xD5#8 0x01#8 vectors))
    (framedAs [0xD5#8, 0x01#8, 0x07#8, 0x01#8, 0x02#8, 0x00#8, 0x00#8, 0x01#8, 0xFF#8, 0xFF#8, 0xFF#8, 0x7F#8, 0xFF#8,
      0xFF#8, 0x80#8, 0x00#8, 0x00#8, 0x65#8]) = true := by decide

theorem test_receive_nextTarget :
    goesTo (step (receiving [0xD5#8, 0x01#8, 0x07#8, 0x01#8, 0x02#8, 0x00#8, 0x00#8, 0x01#8, 0xFF#8, 0xFF#8, 0xFF#8, 0x7F#8, 0xFF#8,
      0xFF#8, 0x80#8, 0x00#8, 0x00#8, 0x65#8]))
      (holds { command := .nextTarget, cameraId := 0x01#8, payload := .targetData recTarget, checksum := 0x65#8 }) = true := by
  decide

theorem test_frame_firstImage : goesTo (step (requesting 5#4 0xD6#8 0x01#8 vectors))
    (framedAs [0xD6#8, 0x01#8, 0x03#8, 0xBE#8, 0xEF#8, 0x00#8, 0x00#8, 0x64#8, 0xFF#8, 0xFF#8, 0x9C#8, 0x00#8, 0x00#8,
      0x00#8, 0xFF#8, 0xFF#8, 0xFE#8, 0xBF#8]) = true := by decide

theorem test_receive_firstImage :
    goesTo (step (receiving [0xD6#8, 0x01#8, 0x03#8, 0xBE#8, 0xEF#8, 0x00#8, 0x00#8, 0x64#8, 0xFF#8, 0xFF#8, 0x9C#8, 0x00#8, 0x00#8,
      0x00#8, 0xFF#8, 0xFF#8, 0xFE#8, 0xBF#8]))
      (holds { command := .firstImage, cameraId := 0x01#8, payload := .imageData recImage, checksum := 0xBF#8 }) = true := by
  decide

theorem test_frame_nextImage : goesTo (step (requesting 5#4 0xD7#8 0x01#8 vectors))
    (framedAs [0xD7#8, 0x01#8, 0x03#8, 0xBE#8, 0xEF#8, 0x00#8, 0x00#8, 0x64#8, 0xFF#8, 0xFF#8, 0x9C#8, 0x00#8, 0x00#8,
      0x00#8, 0xFF#8, 0xFF#8, 0xFE#8, 0xBE#8]) = true := by decide

theorem test_receive_nextImage :
    goesTo (step (receiving [0xD7#8, 0x01#8, 0x03#8, 0xBE#8, 0xEF#8, 0x00#8, 0x00#8, 0x64#8, 0xFF#8, 0xFF#8, 0x9C#8, 0x00#8, 0x00#8,
      0x00#8, 0xFF#8, 0xFF#8, 0xFE#8, 0xBE#8]))
      (holds { command := .nextImage, cameraId := 0x01#8, payload := .imageData recImage, checksum := 0xBE#8 }) = true := by
  decide

theorem test_frame_eepromData : goesTo (step (requesting 6#4 0xD8#8 0x01#8 vectors))
    (framedAs [0xD8#8, 0x01#8, 0x12#8, 0x34#8, 0x00#8, 0x01#8, 0x02#8, 0x03#8, 0x04#8, 0x05#8, 0x06#8, 0x07#8, 0x08#8,
      0x09#8, 0x0A#8, 0x0B#8, 0x0C#8, 0x0D#8, 0x0E#8, 0x0F#8, 0xA9#8]) = true := by decide

theorem test_receive_eepromData :
    goesTo (step (receiving [0xD8#8, 0x01#8, 0x12#8, 0x34#8, 0x00#8, 0x01#8, 0x02#8, 0x03#8, 0x04#8, 0x05#8, 0x06#8, 0x07#8, 0x08#8,
      0x09#8, 0x0A#8, 0x0B#8, 0x0C#8, 0x0D#8, 0x0E#8, 0x0F#8, 0xA9#8]))
      (holds { command := .eepromData, cameraId := 0x01#8, payload := .eepromData recEeprom, checksum := 0xA9#8 }) = true := by
  decide

theorem test_frame_requestEeprom : goesTo (step (requesting 7#4 0xD9#8 0x01#8 vectors))
    (framedAs [0xD9#8, 0x01#8, 0x12#8, 0x34#8, 0x20#8]) = true := by decide

theorem test_receive_requestEeprom :
    goesTo (step (receiving [0xD9#8, 0x01#8, 0x12#8, 0x34#8, 0x20#8]))
      (holds { command := .requestEeprom, cameraId := 0x01#8, payload := .eepromDataRequest { address := 0x1234#16 }, checksum := 0x20#8 }) = true := by
  decide

theorem test_frame_cameraCalibration : goesTo (step (requesting 8#4 0xDA#8 0x01#8 vectors))
    (framedAs [0xDA#8, 0x01#8, 0xFF#8, 0xFF#8, 0xFC#8, 0xFF#8, 0xFF#8, 0xFD#8, 0xFF#8, 0xFF#8, 0xFE#8, 0xFF#8, 0xFF#8,
      0xFF#8, 0x00#8, 0x00#8, 0x00#8, 0x00#8, 0x00#8, 0x01#8, 0x00#8, 0x00#8, 0x02#8, 0x00#8, 0x00#8, 0x03#8,
      0x00#8, 0x00#8, 0x04#8, 0x6D#8]) = true := by decide

theorem test_receive_cameraCalibration :
    goesTo (step (receiving [0xDA#8, 0x01#8, 0xFF#8, 0xFF#8, 0xFC#8, 0xFF#8, 0xFF#8, 0xFD#8, 0xFF#8, 0xFF#8, 0xFE#8, 0xFF#8, 0xFF#8,
      0xFF#8, 0x00#8, 0x00#8, 0x00#8, 0x00#8, 0x00#8, 0x01#8, 0x00#8, 0x00#8, 0x02#8, 0x00#8, 0x00#8, 0x03#8,
      0x00#8, 0x00#8, 0x04#8, 0x6D#8]))
      (holds { command := .cameraCalibration, cameraId := 0x01#8, payload := .cameraCalibration recCalibration, checksum := 0x6D#8 }) = true := by
  decide

theorem test_frame_diagnosticMode : goesTo (step (requesting 9#4 0xDB#8 0x01#8 vectors))
    (framedAs [0xDB#8, 0x01#8, 0x05#8, 0x5F#8]) = true := by decide

theorem test_receive_diagnosticMode :
    goesTo (step (receiving [0xDB#8, 0x01#8, 0x05#8, 0x5F#8]))
      (holds { command := .diagnosticMode, cameraId := 0x01#8, payload := .diagnosticMode { mode := 0x05#8 }, checksum := 0x5F#8 }) = true := by
  decide

/-! ### Errors and the host (rows T, R, N, P, K) -/

/-- T3: the field's error comes before the command's. -/
theorem test_T3 : goesTo (step (requesting 4#4 0xD6#8 0x01#8
    { zeros with targetData := { zeros.targetData with targetX := 0x00800000#32 } }))
    (txError 0x1A#8 (.rangeError 8388608 (-8388608) 8388607)) = true := by decide

/-- T4. -/
theorem test_T4 : goesTo (step (requesting 0#4 0x01#8 0x01#8 { zeros with poll := { command := 0xD0#8 } }))
    (txError 0x16#8 (.invalidEnumValue .pollCommand 0xD0#8)) = true := by decide

/-- T5: the allowed set is MODE_00..MODE_03 and SYSTEM_STATUS. -/
theorem test_T5 : goesTo (step (requesting 0#4 0xD1#8 0x01#8 { zeros with poll := { command := 0xD1#8 } }))
    (txError 0x22#8 (.invalidCommand 0b000000000101111#15 0xD1#8)) = true := by decide

/-- T6. -/
theorem test_T6 : goesTo (step (requesting 0#4 0xD2#8 0xFF#8 { zeros with poll := { command := 0xD2#8 } }))
    (framedAs [0xD2#8, 0xFF#8, 0xD2#8, 0x9D#8]) = true := by decide

/-- T7: 0x43 is no status code of the test build. -/
theorem test_T7 : goesTo (step (requesting 2#4 0xD2#8 0x01#8
    { zeros with systemStatus := { recStatus with systemStatus := 0x43#8 } }))
    (txError 0x16#8 (.invalidEnumValue .sysStatusStatus 0x43#8)) = true := by decide

/-- T8: a command register that holds no command. -/
theorem test_T8 : goesTo (step (requesting 9#4 0x04#8 0x01#8 vectors))
    (txError 0x22#8 (.invalidCommand 0b100000000000000#15 0x04#8)) = true := by decide

/-- T9: the START does not exist. -/
theorem test_T9 : step { hosting [.startTx true] with tx := { TxChannel.reset with variant := 12#4 } } =
    .refused .noSuchVariant := by rfl

/-- 70_reset_and_hazards.md R430: a write of 0 to START while BUSY is refused. -/
theorem test_start_zero_busy :
    step { hosting [.startRx false] with rx := (receiving [0x00#8]).rx } = .refused .startWhileBusy := by rfl

/-- T10: after a failed FRAME the earlier frame's bytes are left in TX_BUF. -/
theorem test_T10 : goesTo (step (withTxBuf [(0, 0xD1#8), (1, 0xFF#8)] 29 (requesting 1#4 0xD4#8 0xFF#8 vectors)))
    (fun s => txError 0x22#8 (.invalidCommand (allowedMask .positionPoll) 0xD4#8) s &&
      s.tx.buf == [(0, 0xD1#8), (1, 0xFF#8)]) = true := by decide

/-- R8. -/
theorem test_R8 : goesTo (step (receiving [0x00#8, 0x01#8, 0xD0#8, 0x6F#8]))
    (rxError 0x16#8 (.invalidEnumValue .pollCommand 0xD0#8)) = true := by decide

/-- Y7: the status code is reported before the dsp byte (0x90 is no DSPError code of the test build). -/
theorem test_Y7 : unpackError testBuild (.systemStatus { recStatus with
    systemStatus := 0x43#8, dspStatus := .error 0x90#8 }) = some (.invalidEnumValue .sysStatusStatus 0x43#8) := by rfl

/-- S5, P18, P19: the dsp byte. -/
theorem test_dsp : readDsp 0x00#8 = .iterations 0#7 ∧ readDsp 0x7F#8 = .iterations 127#7 ∧
    checkDsp testBuild (readDsp 0x80#8) = .ok () ∧
    checkDsp testBuild (readDsp 0x81#8) = .error (.invalidEnumValue .sysStatusDsp 0x81#8) := ⟨rfl, rfl, rfl, rfl⟩

/-- P1 to P4. -/
theorem test_pack_signed : packS24 0xFFFFFC18#32 = .ok [0xFF#8, 0xFC#8, 0x18#8] ∧
    packS24 0xFF800000#32 = .ok [0x80#8, 0x00#8, 0x00#8] ∧ packS24 0x007FFFFF#32 = .ok [0x7F#8, 0xFF#8, 0xFF#8] ∧
    packS24 0xFFFFFFFF#32 = .ok [0xFF#8, 0xFF#8, 0xFF#8] := ⟨rfl, rfl, rfl, rfl⟩

/-- P5, P6, P10, P11. -/
theorem test_pack_out_of_range : packS24 0x00800000#32 = .error (.rangeError 8388608 (-8388608) 8388607) ∧
    packS24 0xFF7FFFFF#32 = .error (.rangeError (-8388609) (-8388608) 8388607) ∧
    packU24 0x01000000#32 = .error (.rangeError 16777216 0 16777215) ∧
    packU24 0xFFFFFFFF#32 = .error (.rangeError 4294967295 0 16777215) := ⟨rfl, rfl, rfl, rfl⟩

/-- P12 to P16. -/
theorem test_unpack : unpackS24 0x80#8 0x00#8 0x00#8 = 0xFF800000#32 ∧ unpackS24 0x7F#8 0xFF#8 0xFF#8 = 0x007FFFFF#32 ∧
    unpackS24 0xFF#8 0xFC#8 0x18#8 = 0xFFFFFC18#32 ∧ unpackU24 0x80#8 0x00#8 0x00#8 = 0x00800000#32 ∧
    unpackU24 0xFF#8 0xFF#8 0xFF#8 = 0x00FFFFFF#32 := ⟨rfl, rfl, rfl, rfl, rfl⟩

/-- S1, K1 to K8. -/
theorem test_checksum : checksum [] = 0x40#8 ∧ checksum [0x40#8] = 0x00#8 ∧ checksum [0x41#8] = 0xFF#8 ∧
    checksum [0x40#8, 0x00#8] = 0x00#8 ∧ checksum (List.replicate 4 0xFF#8) = 0x44#8 ∧
    checksum [0x01#8, 0x02#8, 0x03#8, 0x04#8, 0x05#8] = 0x31#8 ∧ checksum (List.replicate 29 0x00#8) = 0x40#8 ∧
    checksum (List.replicate 29 0xFF#8) = 0x5D#8 := ⟨rfl, rfl, rfl, rfl, rfl, rfl, rfl, rfl⟩

/-- N1 to N4: after R13, after R4, after reset. -/
theorem test_narrow :
    goesTo (step (receiving [0xD9#8, 0x01#8, 0x12#8, 0x34#8, 0x20#8])) (fun s =>
      decide (portValue s (.narrow .eepromDataRequest) = .ok (.payload (.eepromDataRequest { address := 0x1234#16 }))) &&
      decide (portValue s (.narrow .eepromData) =
        .ok (.portError (.wrongVariant .eepromData (some .eepromDataRequest))))) = true ∧
    goesTo (step (receiving [0xD1#8, 0xFF#8, 0x00#8, 0x70#8])) (fun s =>
      decide (portValue s (.narrow .positionPoll) = .ok (.portError (.wrongVariant .positionPoll none)))) = true ∧
    portValue idle (.narrow .poll) = .ok (.portError (.wrongVariant .poll none)) := by decide

/-- 70_reset_and_hazards.md R420. -/
theorem test_reset_memory : Memory.wf State.reset.tx.buf ∧ Memory.wf State.reset.rx.buf := by decide

/-- A write of the value an unlisted byte reads as removes the entry. -/
theorem test_memory_canonical :
    Memory.write [(2, 0x11#8), (5, 0x22#8)] 2 0x00#8 = [(5, 0x22#8)] ∧
    Memory.write [(2, 0x11#8)] 5 0x22#8 = [(2, 0x11#8), (5, 0x22#8)] ∧
    Memory.write [] 7 0x00#8 = [] := by decide

/-! ### Witnesses: a state and operands that meet each statement's hypotheses, at the boundary of each clause -/

theorem witness_SignedPackEmitsThreeBytesOrRaisesRangeError :
    (0xFF800000#32).toInt = -8388608 ∧ (0x007FFFFF#32).toInt = 8388607 ∧ (0xFF7FFFFF#32).toInt = -8388609 ∧
    (0x00800000#32).toInt = 8388608 := by decide

theorem witness_UnsignedPackEmitsThreeBytesOrRaisesRangeError :
    (0x00FFFFFF#32).toNat = 16777215 ∧ 16777215 < (0x01000000#32).toNat ∧ 16777215 < (0xFFFFFFFF#32).toNat := by
  decide

theorem witness_PackedIntsReadBackAsThemselves :
    packS24 0xFF800000#32 = .ok [0x80#8, 0x00#8, 0x00#8] ∧ packU24 0x00FFFFFF#32 = .ok [0xFF#8, 0xFF#8, 0xFF#8] :=
  ⟨rfl, rfl⟩

theorem witness_SixteenBitAndVerbatimFieldsRoundTrip : (List.replicate 18 0xA5#8).length = 18 := by decide

theorem witness_EnumerationFieldsRaiseOnNonMembers :
    isMember testBuild .pollCommand 0xDB#8 = true ∧ isMember testBuild .pollCommand 0xDC#8 = false ∧
    isMember testBuild .sysStatusStatus 0x42#8 = true ∧ isMember testBuild .sysStatusStatus 0x43#8 = false ∧
    isMember testBuild .sysStatusDsp 0x80#8 = true ∧ isMember testBuild .sysStatusDsp 0x7F#8 = false ∧
    isMember testBuild .diagMode 0x05#8 = true ∧ isMember testBuild .diagMode 0x04#8 = false := by decide

theorem witness_DspByteSplitsBySign :
    (0x7F#8).toNat < 128 ∧ 128 ≤ (0x80#8).toNat ∧ testBuild.isDspError 0xFF#8 = true ∧
    testBuild.isDspError 0x81#8 = false ∧ testBuild.isDspError 0x7F#8 = false := by decide

theorem witness_ChecksumClosedFormAndFrameSum : [0x40#8] ≠ ([] : List Byte) := by decide

theorem witness_ChecksumDetectsOneChangedByteOnly :
    2 < [0x01#8, 0x02#8, 0x03#8].length ∧ 0xFF#8 ≠ byteAt [0x01#8, 0x02#8, 0x03#8] 2 ∧
    [0x01#8, 0x02#8].Perm [0x02#8, 0x01#8] ∧ byteSum [0xFF#8, 0x01#8] % 256 = byteSum [0x80#8, 0x80#8] % 256 := by
  decide

theorem witness_CommandCodesAreAPartialBijection :
    Command.fromByte 0x00#8 = some .mode00 ∧ Command.fromByte 0xDB#8 = some .diagnosticMode := by decide

theorem witness_FramerAcceptsExactlyTheCompatiblePairs :
    encodePayload idle.build ((requesting 0#4 0xD2#8 0x01#8 vectors).tx.records.select .poll) = .ok [0x00#8] ∧
    (Variant.poll, 0xD2#8) ∈ compatiblePairs ∧ (Variant.poll, 0xD1#8) ∉ compatiblePairs := ⟨rfl, by decide, by decide⟩

/-- The four ends of the reserved ranges, each in a frame whose checksum is right, and a legal request. -/
theorem witness_ReservedCodesAreRejected :
    (∀ n ∈ [0x04, 0xD0, 0xDC, 0xFF], ((0x04 ≤ (BitVec.ofNat 8 n).toNat ∧ (BitVec.ofNat 8 n).toNat ≤ 0xD0) ∨
        0xDC ≤ (BitVec.ofNat 8 n).toNat) ∧
      4 ≤ (frameOf (BitVec.ofNat 8 n) 0x00#8 [0x00#8]).length ∧
      byteAt (frameOf (BitVec.ofNat 8 n) 0x00#8 [0x00#8]) 0 = BitVec.ofNat 8 n ∧
      checksum ((frameOf (BitVec.ofNat 8 n) 0x00#8 [0x00#8]).take 3) =
        byteAt (frameOf (BitVec.ofNat 8 n) 0x00#8 [0x00#8]) 3) ∧
    Variant.ofTag (requesting 9#4 0x04#8 0x01#8 vectors).tx.variant = some .diagnosticMode ∧
    ((requesting 9#4 0x04#8 0x01#8 vectors).tx.records.select .diagnosticMode).legal testBuild = true := by decide

theorem witness_DecodeOfEncodeIsTheInstruction :
    Instr.wellFormed (.systemStatus (.deframe 0xFF#8 { recStatus with rmsError := 0x00FFFFFF#32 })) = true ∧
    Instr.wellFormed (.cameraCalibration (.deframe 0x00#8 { recCalibration with cal0 := 0xFF800000#32 })) = true ∧
    Instr.wellFormed (.nextImage .frame) = true := by decide

theorem witness_EncodeOfDecodeIsWhatWasFetched :
    decode (.rx [0x00#8, 0x01#8, 0x00#8, 0x3F#8]) = .ok (.mode00 (.deframe 0x01#8 { command := 0x00#8 })) ∧
    decode (.tx 0x00#8) = .ok (.mode00 .frame) := ⟨rfl, rfl⟩

theorem witness_PayloadsRoundTripAndDecodeLegal :
    (Payload.targetData recTarget).legal testBuild = true ∧
    (List.replicate 26 0xFF#8).length = Variant.positionPoll.payloadLen ∧
    unpackError testBuild (readPayload .positionPoll (List.replicate 26 0xFF#8)) = none := by decide

theorem witness_FirstBadFieldInTableOrderIsReported :
    (Payload.imageData recImage).legal testBuild = true ∧
    (Payload.imageData { recImage with xError := 0x00800000#32 }).legal testBuild = false ∧
    encodePayload testBuild (.positionPoll { recPosition with zoom := 0x01000000#32 }) =
      .error (.rangeError 16777216 0 16777215) ∧
    unpackError testBuild (.diagnosticMode { mode := 0x07#8 }) = some (.invalidEnumValue .diagMode 0x07#8) :=
  ⟨by decide, by decide, rfl, rfl⟩

theorem witness_ModeCommandsReceived :
    0x03#8 ∈ commandCodes ∧ 0xDB#8 ∈ commandCodes ∧ 0x04#8 ∉ commandCodes ∧ 0xDC#8 ∉ commandCodes := by decide

theorem witness_SystemStatusReceived :
    0x42#8 ∈ idle.build.sysStatusCodes ∧ 0x43#8 ∉ idle.build.sysStatusCodes ∧
    idle.build.isDspError 0x80#8 = true ∧ idle.build.isDspError 0x81#8 = false := by decide

theorem witness_DiagnosticModeReceived :
    0x06#8 ∈ idle.build.diagModeCodes ∧ 0x07#8 ∉ idle.build.diagModeCodes := by decide

/-- Every one of the sixteen compatible pairs has a legal request that names it. -/
theorem witness_LegalRequestsAreFramed :
    (∀ p ∈ compatiblePairs, Variant.ofTag (requesting (BitVec.ofNat 4 p.1.tag) p.2 0x01#8 vectors).tx.variant =
        some p.1 ∧ ((requesting (BitVec.ofNat 4 p.1.tag) p.2 0x01#8 vectors).tx.records.select p.1).legal testBuild = true ∧
      frameForms.any (fun i => (command i).toByte == p.2) = true) ∧ compatiblePairs.length = 16 := by decide

theorem witness_BadRequestsReportPayloadThenCommand :
    Variant.ofTag (requesting 5#4 0xD6#8 0x01#8 vectors).tx.variant = some .imageData ∧
    Instr.firstImage .frame ∈ frameForms ∧
    encodePayload testBuild (.imageData { recImage with yError := 0x00800000#32 }) =
      .error (.rangeError 8388608 (-8388608) 8388607) ∧
    (Payload.imageData recImage).legal testBuild = true ∧ (Variant.imageData, 0xD5#8) ∉ compatiblePairs :=
  ⟨by decide, by decide, rfl, by decide, by decide⟩

theorem witness_StatusPollRequestIsFramedAndNotDeframed :
    (requesting 0#4 0xD2#8 0x01#8 vectors).tx.variant = 0#4 ∧
    (requesting 0#4 0xD2#8 0x01#8 vectors).tx.records.poll.command ∈ commandCodes ∧
    (∃ i, decode (.rx [0xD2#8, 0x01#8, 0x81#8, 0x03#8, 0x42#8, 0x01#8, 0x02#8, 0x03#8, 0x05#8, 0x09#8, 0x08#8, 0x07#8,
      0x00#8, 0x01#8, 0x02#8, 0x81#8]) = .ok i) := ⟨rfl, by decide, _, rfl⟩

theorem witness_ReceivedFramesChangeOnlyTheRxResults :
    (receivedOperands (.mode00 (.deframe 0x01#8 { command := 0x00#8 }))).isSome = true ∧
    (∃ s', exec (.mode00 (.deframe 0x01#8 { command := 0x00#8 })) idle = .next s') := ⟨rfl, _, rfl⟩

/-- The frame stored, and the request rejected. -/
theorem witness_FramingChangesOnlyTheTxResults :
    receivedOperands (.requestEeprom .frame) = none ∧
    Variant.ofTag (requesting 7#4 0xD9#8 0x01#8 vectors).tx.variant = some .eepromDataRequest ∧
    (∃ s', exec (.requestEeprom .frame) (requesting 7#4 0xD9#8 0x01#8 vectors) = .next s') ∧
    Memory.wf (requesting 7#4 0xD9#8 0x01#8 vectors).tx.buf ∧
    frameResult (requesting 7#4 0xD9#8 0x01#8 vectors) 0xD9#8 .eepromDataRequest =
      .ok [0xD9#8, 0x01#8, 0x12#8, 0x34#8, 0x20#8] ∧
    (∃ e, frameResult (requesting 7#4 0xD9#8 0x01#8 vectors) 0xD8#8 .eepromDataRequest = .error e) :=
  ⟨rfl, rfl, ⟨_, rfl⟩, by decide, rfl, _, rfl⟩

theorem witness_StepExecutesTheDecodedInstruction :
    (mover (receiving [0xD9#8, 0x01#8, 0x12#8, 0x34#8, 0x20#8]) = .rx ∧
      statBusy (receiving [0xD9#8, 0x01#8, 0x12#8, 0x34#8, 0x20#8]).rx.stat = true ∧
      rxFetch (receiving [0xD9#8, 0x01#8, 0x12#8, 0x34#8, 0x20#8]) = some [0xD9#8, 0x01#8, 0x12#8, 0x34#8, 0x20#8] ∧
      decode (.rx [0xD9#8, 0x01#8, 0x12#8, 0x34#8, 0x20#8]) =
        .ok (.requestEeprom (.deframe 0x01#8 { address := 0x1234#16 }))) ∧
    (mover (requesting 7#4 0xD9#8 0x01#8 vectors) = .tx ∧
      statBusy (requesting 7#4 0xD9#8 0x01#8 vectors).tx.stat = true ∧
      decode (.tx (requesting 7#4 0xD9#8 0x01#8 vectors).tx.command) = .ok (.requestEeprom .frame)) :=
  ⟨⟨rfl, by decide, rfl, rfl⟩, rfl, by decide, rfl⟩

/-- An empty buffer, a full one, and a payload that raises. -/
theorem witness_RxStepIsTheDeframePseudocode :
    (mover (receiving []) = .rx ∧ statBusy (receiving []).rx.stat = true ∧
      (receiving []).rx.len ≤ (receiving []).build.rxMaxLen) ∧
    (mover (receiving (List.replicate 32 0xFF#8)) = .rx ∧ statBusy (receiving (List.replicate 32 0xFF#8)).rx.stat = true ∧
      (receiving (List.replicate 32 0xFF#8)).rx.len = (receiving (List.replicate 32 0xFF#8)).build.rxMaxLen) ∧
    unpackError testBuild (readPayload .poll [0x04#8]) = some (.invalidEnumValue .pollCommand 0x04#8) := by decide

/-- A command byte that is allowed, one that is not, one that is no command, and a payload that raises. -/
theorem witness_TxStepIsTheFramePseudocode :
    (∀ c ∈ [0xD8#8, 0xD7#8, 0xDC#8], mover (requesting 6#4 c 0x01#8 vectors) = .tx ∧
      statBusy (requesting 6#4 c 0x01#8 vectors).tx.stat = true ∧
      Variant.ofTag (requesting 6#4 c 0x01#8 vectors).tx.variant = some .eepromData) ∧
    encodePayload testBuild (.poll { command := 0x04#8 }) = .error (.invalidEnumValue .pollCommand 0x04#8) :=
  ⟨by decide, rfl⟩

/-- Two buffers that differ in the byte at RX_LEN only. -/
theorem witness_DeframeReadsOnlyTheFrame :
    let s := receiving [0x00#8, 0x01#8, 0x00#8, 0x3F#8]
    let t := { s with rx := { s.rx with buf := writeBytes s.rx.buf 4 [0xAA#8] } }
    mover s = .rx ∧ mover t = .rx ∧ statBusy s.rx.stat = true ∧ statBusy t.rx.stat = true ∧ s.build = t.build ∧
    s.rx.len = t.rx.len ∧ s.rx.len ≤ s.build.rxMaxLen ∧
    (∀ a, a < s.rx.len → Memory.read s.rx.buf a = Memory.read t.rx.buf a) ∧ s ≠ t := by decide

/-- Two requests that differ in the records not selected and in what the buffer held. -/
theorem witness_FrameIgnoresUnselectedRecords :
    let s := requesting 7#4 0xD9#8 0x01#8 vectors
    let u := withTxBuf [(0, 0x11#8)] 0 (requesting 7#4 0xD9#8 0x01#8
      { zeros with eepromDataRequest := { address := 0x1234#16 } })
    receivedOperands (.requestEeprom .frame) = none ∧ Variant.ofTag s.tx.variant = some .eepromDataRequest ∧
    u.tx.variant = s.tx.variant ∧ u.build = s.build ∧ u.tx.cameraId = s.tx.cameraId ∧
    u.tx.records.select .eepromDataRequest = s.tx.records.select .eepromDataRequest ∧ Memory.wf s.tx.buf ∧
    Memory.wf u.tx.buf ∧ goesTo (exec (.requestEeprom .frame) s) (fun _ => true) = true ∧
    goesTo (exec (.requestEeprom .frame) u) (fun _ => true) = true ∧ s ≠ u := by decide

theorem witness_FramedRequestsDeframeToThemselves :
    ∀ c ∈ Command.all, Variant.ofTag (requesting (BitVec.ofNat 4 (route c).tag) c.toByte 0x01#8 vectors).tx.variant =
        some (route c) ∧
      ((requesting (BitVec.ofNat 4 (route c).tag) c.toByte 0x01#8 vectors).tx.records.select (route c)).legal
        testBuild = true ∧
      Memory.wf (requesting (BitVec.ofNat 4 (route c).tag) c.toByte 0x01#8 vectors).tx.buf := by decide

theorem witness_DeframedMessagesFrameToTheSameBytes :
    let m : Message := { command := .requestEeprom, cameraId := 0x01#8,
                         payload := .eepromDataRequest { address := 0x1234#16 }, checksum := 0x20#8 }
    let q := requesting 7#4 0x00#8 0x01#8 vectors
    decode (.rx [0xD9#8, 0x01#8, 0x12#8, 0x34#8, 0x20#8]) =
      .ok (.requestEeprom (.deframe 0x01#8 { address := 0x1234#16 })) ∧
    goesTo (exec (.requestEeprom (.deframe 0x01#8 { address := 0x1234#16 })) idle)
      (fun s' => decide (s'.rx.msg = some m)) = true ∧
    q.build = idle.build ∧ Variant.ofTag q.tx.variant = some m.payload.variant ∧
    q.tx.records.select m.payload.variant = m.payload ∧ q.tx.cameraId = m.cameraId ∧ Memory.wf q.tx.buf :=
  ⟨rfl, by decide, rfl, rfl, rfl, rfl, by decide⟩

/-- The first byte, and the checksum byte. -/
theorem witness_OneCorruptedByteIsAChecksumMismatch :
    decode (.rx [0x00#8, 0x01#8, 0x00#8, 0x3F#8]) = .ok (.mode00 (.deframe 0x01#8 { command := 0x00#8 })) ∧
    0x01#8 ≠ byteAt [0x00#8, 0x01#8, 0x00#8, 0x3F#8] 0 ∧ 0x40#8 ≠ byteAt [0x00#8, 0x01#8, 0x00#8, 0x3F#8] 3 ∧
    3 < [0x00#8, 0x01#8, 0x00#8, 0x3F#8].length := ⟨rfl, by decide, by decide, by decide⟩

/-- Both channels BUSY. -/
theorem witness_ChannelTurnsAreIndependent :
    let s := { receiving [0xD9#8, 0x01#8, 0x12#8, 0x34#8, 0x20#8] with tx := (requesting 7#4 0xD9#8 0x01#8 vectors).tx }
    statBusy s.tx.stat = true ∧ statBusy s.rx.stat = true ∧ goesTo (txTurn s) (fun _ => true) = true ∧
    goesTo (rxTurn s) (fun _ => true) = true := by decide

theorem witness_StartChangesTheStatusAlone :
    mover (hosting [.startTx true]) = .host ∧ statBusy (hosting [.startTx true]).tx.stat = false ∧
    Variant.ofTag (hosting [.startTx true]).tx.variant = some .poll ∧ mover (hosting [.startRx true]) = .host ∧
    statBusy (hosting [.startRx true]).rx.stat = false ∧ mover (hosting [.startTx false]) = .host ∧
    statBusy (hosting [.startTx false]).tx.stat = false ∧ mover (hosting [.startRx false]) = .host ∧
    statBusy (hosting [.startRx false]).rx.stat = false := by decide

theorem witness_BusyChannelsRefuseWritesAndStarts :
    let s := { hosting [.write (.txCommand 0x00#8)] with
      tx := (requesting 0#4 0x00#8 0x00#8 zeros).tx, rx := (receiving []).rx }
    mover s = .host ∧ statBusy s.tx.stat = true ∧ statBusy s.rx.stat = true ∧ isTxWrite (.txCommand 0x00#8) = true ∧
    isRxWrite (.rxLen 4) = true ∧ isRxWrite (.rxBuf 0 [0x00#8]) = true := by decide

theorem witness_UnnamedVariantsAndOversizedLengthsAreRefused :
    mover (hosting [.startTx true]) = .host ∧ statBusy (hosting [.startTx true]).tx.stat = false ∧
    10 ≤ (10#4).toNat ∧ 10 ≤ (15#4).toNat ∧ (9#4).toNat < 10 ∧
    statBusy (hosting [.write (.rxLen 33)]).rx.stat = false ∧ (hosting [.write (.rxLen 33)]).build.rxMaxLen < 33 ∧
    ¬ (hosting [.write (.rxLen 33)]).build.rxMaxLen < 32 := by decide

theorem witness_ExecutingAnUnnamedVariantIsRefused :
    10 ≤ (requesting 10#4 0xD1#8 0x01#8 vectors).tx.variant.toNat ∧
    10 ≤ (requesting 15#4 0xD1#8 0x01#8 vectors).tx.variant.toNat := by decide

/-- The last byte of RX_BUF, the whole of it, the greatest RX_LEN, and a TX field. -/
theorem witness_WriteChangesOnlyTheRegisterWritten :
    mover (hosting [.write (.rxBuf 31 [0xAA#8])]) = .host ∧ Memory.wf (hosting []).rx.buf ∧
    isRxWrite (.rxBuf 31 [0xAA#8]) = true ∧ [0xAA#8].length = 1 ∧
    (31 + [0xAA#8].length ≤ (hosting []).build.rxMaxLen) ∧
    (List.replicate 32 0xAA#8).length = (hosting []).build.rxMaxLen ∧ isRxWrite (.rxLen 32) = true ∧
    32 ≤ (hosting []).build.rxMaxLen ∧ isTxWrite (.txVariant 15#4) = true ∧
    statBusy (hosting []).tx.stat = false ∧ statBusy (hosting []).rx.stat = false := by decide

/-- A range of two bytes at the end of RX_BUF, an empty one past it, and a write of each status register. -/
theorem witness_RangeAndStatusWritesTakeTheModelsEffect :
    mover (hosting [.write (.rxBuf 30 [0xAA#8, 0xBB#8])]) = .host ∧ statBusy (hosting []).rx.stat = false ∧
    30 + [0xAA#8, 0xBB#8].length ≤ (hosting []).build.rxMaxLen ∧
    32 + ([] : List Byte).length ≤ (hosting []).build.rxMaxLen ∧ Memory.wf (hosting []).rx.buf ∧
    mover (hosting [.write (.txStat 0xFF#8)]) = .host ∧ mover (hosting [.write (.rxStat 0xFF#8)]) = .host := by decide

theorem witness_ReadsAndPortsHaveNoSideEffect :
    mover (hosting [.read (.txBuf 29)]) = .host ∧ readReg (hosting [.read (.txBuf 29)]) (.txBuf 29) = some (.byte 0x00#8) ∧
    mover (hosting [.port .variantIndex]) = .host ∧
    portValue (hosting [.port .variantIndex]) .variantIndex = .ok (.tag none) := by decide

theorem witness_WaitHoldsTheHostUntilTheValueIsRead :
    mover (hosting [.wait .txDone (.bit true)]) = .host ∧
    readReg (hosting [.wait .txDone (.bit true)]) .txDone = some (.bit false) ∧
    Value.bit false ≠ Value.bit true ∧ mover (hosting [.wait .txDone (.bit false)]) = .host := by decide

theorem witness_HostNeverChangesResults :
    mover (hosting [.startRx true]) = .host ∧ (∃ s', step (hosting [.startRx true]) = .next s') := ⟨rfl, _, rfl⟩

theorem witness_NarrowReturnsTheRecordOrWrongVariant :
    mover (hosting [.port (.narrow .poll)]) = .host ∧ idle.rx.msg = none ∧ Payload.variant (.poll { command := 0x00#8 }) = .poll ∧
    Payload.variant (.poll { command := 0x00#8 }) ≠ .diagnosticMode := by decide

theorem witness_TestPortsExposeChecksumAndPacker :
    mover (hosting [.port (.checksum (List.replicate 29 0xFF#8))]) = .host ∧
    (List.replicate 29 0xFF#8).length ≤ idle.build.chkMaxLen ∧ -8388608 ≤ (0xFF800000#32).toInt ∧
    (0xFF800000#32).toInt ≤ 8388607 ∧ (0xFF7FFFFF#32).toInt < -8388608 ∧ 8388607 < (0x00800000#32).toInt ∧
    (0x00FFFFFF#32).toNat ≤ 16777215 ∧ 16777215 < (0x01000000#32).toNat := by decide

/-- A reset in the middle of both operations. -/
theorem witness_ResetPutsEveryRegisterInItsResetValue :
    mover { receiving [0x00#8] with turns := [.reset], tx := (requesting 7#4 0xD9#8 0x01#8 vectors).tx } = .reset := by
  decide

/-- The states of the step tests meet the invariant; so do both channels BUSY. -/
theorem witness_inv : State.Inv
    { receiving [0xD9#8, 0x01#8, 0x12#8, 0x34#8, 0x20#8] with tx := (requesting 7#4 0xD9#8 0x01#8 vectors).tx } :=
  ⟨⟨⟨by decide, by decide, by decide⟩, by decide, by decide, by decide, by decide, by decide, by decide, by decide,
      by decide⟩,
    ⟨⟨by decide, by decide, by decide⟩, by decide, by decide, by decide, by decide, by decide, by decide,
      (fun _ h => nomatch h), by decide, by decide⟩⟩

theorem witness_EveryStepKeepsTheMachineInvariant :
    ∃ s s' : State, s.Inv ∧ step s = .next s' := ⟨_, _, witness_inv, rfl⟩

theorem witness_TheBlockNeverFaultsOrSticks : ∃ s : State, s.Inv ∧ mover s ≠ .host :=
  ⟨_, witness_inv, by decide⟩

theorem witness_ATurnOfABusyChannelCompletesIt :
    (∃ s : State, s.Inv ∧ mover s = .rx ∧ statBusy s.rx.stat = true) ∧
    (∃ s : State, s.Inv ∧ mover s = .tx ∧ statBusy s.tx.stat = true) :=
  ⟨⟨_, witness_inv, by decide, by decide⟩,
    ⟨{ receiving [0xD9#8, 0x01#8, 0x12#8, 0x34#8, 0x20#8] with
        tx := (requesting 7#4 0xD9#8 0x01#8 vectors).tx, turns := [.tx] },
      ⟨witness_inv.tx, witness_inv.rx⟩, by decide, by decide⟩⟩

/-- Both channels BUSY, and only TX. -/
theorem witness_DefaultOrderCompletesBusyChannels :
    (∃ s : State, s.Inv ∧ s.turns = [] ∧ statBusy s.rx.stat = true ∧ statBusy s.tx.stat = true) ∧
    (∃ s : State, s.Inv ∧ s.turns = [] ∧ statBusy s.rx.stat = false ∧ statBusy s.tx.stat = true) :=
  ⟨⟨{ receiving [0xD9#8, 0x01#8, 0x12#8, 0x34#8, 0x20#8] with
        tx := (requesting 7#4 0xD9#8 0x01#8 vectors).tx, turns := [] },
      ⟨witness_inv.tx, witness_inv.rx⟩, by decide, by decide, by decide⟩,
    ⟨{ requesting 7#4 0xD9#8 0x01#8 vectors with turns := [] },
      ⟨witness_inv.tx, ⟨⟨by decide, by decide, by decide⟩, by decide, by decide, by decide, by decide, by decide,
        by decide, (fun _ h => nomatch h), by decide, by decide⟩⟩, by decide, by decide, by decide⟩⟩

end Sys2Proof.Tests
end

section
/-!
PROOFS of 10_state.md, the host's WRITE and START: what each does on an idle and on a BUSY channel, as rules about the
host's step; then the statements about them.
-/

namespace Sys2Proof.Machine

open Sys2Proof.Statements

/-! ### The step of a host that moves -/

/-- Registers are read from the build and the channels; the agents outside the block have no part in it. -/
theorem readReg_congr {s s' : State} (hb : s'.build = s.build) (ht : s'.tx = s.tx) (hr : s'.rx = s.rx) (r : Reg) :
    readReg s' r = readReg s r := by
  cases r <;> simp only [readReg, hb, ht, hr]

theorem hostWaits_afterPick (s : State) (h : HostStep) : hostWaits (afterPick s) h = hostWaits s h := by
  cases h with
  | wait r v => simp only [hostWaits, readReg_congr (afterPick_build s) (afterPick_tx s) (afterPick_rx s)]
  | write | startTx | startRx | read | port => rfl

/-- The state in which a host that moves takes its next step: its turn is taken, and `rest` is what it will still do. -/
def afterHostPick (s : State) (rest : List HostStep) : State := { afterPick s with host := rest }

section
variable (s : State) (rest : List HostStep)

@[simp] theorem afterHostPick_build : (afterHostPick s rest).build = s.build := rfl
@[simp] theorem afterHostPick_tx : (afterHostPick s rest).tx = s.tx := rfl
@[simp] theorem afterHostPick_rx : (afterHostPick s rest).rx = s.rx := rfl
@[simp] theorem afterHostPick_host : (afterHostPick s rest).host = rest := rfl
@[simp] theorem afterHostPick_turns : (afterHostPick s rest).turns = s.turns.tail := rfl
@[simp] theorem afterHostPick_results : (afterHostPick s rest).results = s.results := rfl

end

/-- A host that moves and does not wait takes its next step. -/
theorem step_host {s : State} {h : HostStep} {rest : List HostStep} (hm : mover s = .host) (hs : s.host = h :: rest)
    (hw : hostWaits s h = false) : step s = hostStep h (afterHostPick s rest) := by
  rw [step_eq, hm]
  simp [takeTurn, hostTurn, hs, hostWaits_afterPick, hw, afterHostPick]

theorem step_write {s : State} {w : RegWrite} {rest : List HostStep} (hm : mover s = .host)
    (hs : s.host = .write w :: rest) : step s = hostWrite w (afterHostPick s rest) :=
  step_host hm hs rfl

theorem step_startTx {s : State} {v : Bool} {rest : List HostStep} (hm : mover s = .host)
    (hs : s.host = .startTx v :: rest) : step s = hostStartTx v (afterHostPick s rest) :=
  step_host hm hs rfl

theorem step_startRx {s : State} {v : Bool} {rest : List HostStep} (hm : mover s = .host)
    (hs : s.host = .startRx v :: rest) : step s = hostStartRx v (afterHostPick s rest) :=
  step_host hm hs rfl

/-! ### START (10_state.md R38, R41) -/

theorem statStarted_eq : statStarted = 0x01#8 := by decide

section
variable {s : State}

theorem hostStartTx_busy (v : Bool) (hb : statBusy s.tx.stat = true) : hostStartTx v s = .refused .startWhileBusy := by
  simp [hostStartTx, hb]

theorem hostStartTx_one {t : Variant} (hb : statBusy s.tx.stat = false) (ht : Variant.ofTag s.tx.variant = some t) :
    hostStartTx true s = .next (acceptTxStart s) := by
  simp [hostStartTx, hb, ht]

theorem hostStartTx_zero (hb : statBusy s.tx.stat = false) : hostStartTx false s = .next s := by
  simp [hostStartTx, hb]

theorem hostStartRx_busy (v : Bool) (hb : statBusy s.rx.stat = true) : hostStartRx v s = .refused .startWhileBusy := by
  simp [hostStartRx, hb]

theorem hostStartRx_one (hb : statBusy s.rx.stat = false) : hostStartRx true s = .next (acceptRxStart s) := by
  simp [hostStartRx, hb]

theorem hostStartRx_zero (hb : statBusy s.rx.stat = false) : hostStartRx false s = .next s := by
  simp [hostStartRx, hb]

end

/-! ### What WRITE answers (10_state.md R37, R41) -/

/-- Every write of a TX request register is the same operation. -/
theorem hostWrite_tx {w : RegWrite} (hw : isTxWrite w = true) (s : State) : hostWrite w s = writeTx w s := by
  cases w with
  | rxBuf | rxLen | txStat | rxStat => exact absurd hw Bool.false_ne_true
  | txVariant | txCommand | txCameraId | txWord | txHalf | txByte | txDsp | txData => rfl

theorem hostWrite_tx_busy {w : RegWrite} {s : State} (hw : isTxWrite w = true) (hb : statBusy s.tx.stat = true) :
    hostWrite w s = .refused .writeWhileBusy := by
  rw [hostWrite_tx hw, writeTx, if_pos hb]

theorem hostWrite_tx_idle {w : RegWrite} {s : State} (hw : isTxWrite w = true) (hb : statBusy s.tx.stat = false) :
    hostWrite w s = .next { s with tx := s.tx.written w } := by
  simp [hostWrite_tx hw, writeTx, hb]

theorem isRxWrite_cases {w : RegWrite} (hw : isRxWrite w = true) :
    (∃ off B, w = .rxBuf off B) ∨ (∃ n, w = .rxLen n) := by
  cases w with
  | rxBuf off B => exact .inl ⟨off, B, rfl⟩
  | rxLen n => exact .inr ⟨n, rfl⟩
  | txVariant | txCommand | txCameraId | txWord | txHalf | txByte | txDsp | txData | txStat | rxStat =>
    exact absurd hw Bool.false_ne_true

theorem hostWrite_rx_busy {w : RegWrite} {s : State} (hw : isRxWrite w = true) (hb : statBusy s.rx.stat = true) :
    hostWrite w s = .refused .writeWhileBusy := by
  obtain ⟨off, B, rfl⟩ | ⟨n, rfl⟩ := isRxWrite_cases hw
  · simp [hostWrite, writeRxBuf, hb]
  · simp [hostWrite, writeRxLen, hb]

theorem hostWrite_rxBuf_idle {off : Nat} {B : List Byte} {s : State} (hb : statBusy s.rx.stat = false)
    (hf : off + B.length ≤ s.build.rxMaxLen) :
    hostWrite (.rxBuf off B) s = .next { s with rx := { s.rx with buf := writeBytes s.rx.buf off B } } := by
  simp [hostWrite, writeRxBuf, hb, memWrite, hf]

theorem hostWrite_rxLen_idle {n : Nat} {s : State} (hb : statBusy s.rx.stat = false) (hf : n ≤ s.build.rxMaxLen) :
    hostWrite (.rxLen n) s = .next { s with rx := { s.rx with len := n } } := by
  simp [hostWrite, writeRxLen, hb, hf]

/-! ### The fields of `TX_REQ.payload` after an update of one of them -/

namespace TxRecords

variable (r : TxRecords)

@[simp] theorem getWord_setWord (f g : WordField) (v : Word) :
    (r.setWord f v).getWord g = if f = g then v else r.getWord g := by
  cases f <;> cases g <;> rfl

@[simp] theorem getHalf_setWord (f : WordField) (v : Word) : (r.setWord f v).getHalf = r.getHalf := by
  cases f <;> rfl

@[simp] theorem getByte_setWord (f : WordField) (v : Word) : (r.setWord f v).getByte = r.getByte := by
  cases f <;> rfl

@[simp] theorem dspStatus_setWord (f : WordField) (v : Word) :
    (r.setWord f v).systemStatus.dspStatus = r.systemStatus.dspStatus := by
  cases f <;> rfl

@[simp] theorem data_setWord (f : WordField) (v : Word) : (r.setWord f v).eepromData.data = r.eepromData.data := by
  cases f <;> rfl

@[simp] theorem getHalf_setHalf (f g : HalfField) (v : Half) :
    (r.setHalf f v).getHalf g = if f = g then v else r.getHalf g := by
  cases f <;> cases g <;> rfl

@[simp] theorem getWord_setHalf (f : HalfField) (v : Half) : (r.setHalf f v).getWord = r.getWord := by
  cases f <;> rfl

@[simp] theorem getByte_setHalf (f : HalfField) (v : Half) : (r.setHalf f v).getByte = r.getByte := by
  cases f <;> rfl

@[simp] theorem dspStatus_setHalf (f : HalfField) (v : Half) :
    (r.setHalf f v).systemStatus.dspStatus = r.systemStatus.dspStatus := by
  cases f <;> rfl

@[simp] theorem data_setHalf (f : HalfField) (v : Half) : (r.setHalf f v).eepromData.data = r.eepromData.data := by
  cases f <;> rfl

@[simp] theorem getByte_setByte (f g : ByteField) (v : Byte) :
    (r.setByte f v).getByte g = if f = g then v else r.getByte g := by
  cases f <;> cases g <;> rfl

@[simp] theorem getWord_setByte (f : ByteField) (v : Byte) : (r.setByte f v).getWord = r.getWord := by
  cases f <;> rfl

@[simp] theorem getHalf_setByte (f : ByteField) (v : Byte) : (r.setByte f v).getHalf = r.getHalf := by
  cases f <;> rfl

@[simp] theorem dspStatus_setByte (f : ByteField) (v : Byte) :
    (r.setByte f v).systemStatus.dspStatus = r.systemStatus.dspStatus := by
  cases f <;> rfl

@[simp] theorem data_setByte (f : ByteField) (v : Byte) : (r.setByte f v).eepromData.data = r.eepromData.data := by
  cases f <;> rfl

end TxRecords

/-! ### What WRITE changes (10_state.md R37) -/

/-- What a WRITE may do: the register written reads as its value, every other register as before, and the build and the
model's own lists stay. -/
structure WritesOnly (w : RegWrite) (s s' : State) : Prop where
  build : s'.build = s.build
  host : s'.host = s.host
  turns : s'.turns = s.turns
  results : s'.results = s.results
  reads : ∀ r, readReg s' r = (writtenValue w r).or (readReg s r)

/-- A read after a write of a TX request register. -/
theorem readReg_written (w : RegWrite) (s : State) (hw : isTxWrite w = true) (r : Reg) :
    readReg { s with tx := s.tx.written w } r = (writtenValue w r).or (readReg s r) := by
  cases w with
  | rxBuf | rxLen | txStat | rxStat => exact absurd hw Bool.false_ne_true
  | txVariant | txCommand | txCameraId | txDsp | txData => cases r <;> rfl
  | txWord f v | txHalf f v | txByte f v =>
    -- what simp leaves is the read of a field of the written kind: the field itself, or another
    cases r <;> simp [readReg, writtenValue, TxChannel.written]
    split <;> rfl

theorem writesOnly_tx {w : RegWrite} (hw : isTxWrite w = true) (s : State) :
    WritesOnly w s { s with tx := s.tx.written w } :=
  ⟨rfl, rfl, rfl, rfl, readReg_written w s hw⟩

theorem writesOnly_rxBuf {off : Nat} {B : List Byte} {s : State} (hf : off + B.length ≤ s.build.rxMaxLen)
    (hwf : Memory.wf s.rx.buf) :
    WritesOnly (.rxBuf off B) s { s with rx := { s.rx with buf := writeBytes s.rx.buf off B } } := by
  refine ⟨rfl, rfl, rfl, rfl, fun r => ?_⟩
  cases r with
  | rxBuf a =>
    simp only [readReg, writtenValue, read_writeBytes hwf]
    by_cases ha : off ≤ a ∧ a < off + B.length
    · have hcap : a < s.build.rxMaxLen := by omega
      simp [ha, hcap]
    · simp [ha]
  | _ => rfl

theorem writesOnly_rxLen (n : Nat) (s : State) :
    WritesOnly (.rxLen n) s { s with rx := { s.rx with len := n } } := by
  refine ⟨rfl, rfl, rfl, rfl, fun r => ?_⟩
  cases r <;> rfl

/-- A WRITE of an idle channel's request register, with a value there is room for, is a step and writes only that. -/
theorem hostWrite_writesOnly {w : RegWrite} {s : State}
    (hidle : (isTxWrite w = true ∧ statBusy s.tx.stat = false) ∨ (isRxWrite w = true ∧ statBusy s.rx.stat = false))
    (hfit : fits s w) (hwf : Memory.wf s.rx.buf) : ∃ s', hostWrite w s = .next s' ∧ WritesOnly w s s' := by
  rcases hidle with ⟨hw, hb⟩ | ⟨hw, hb⟩
  · exact ⟨_, hostWrite_tx_idle hw hb, writesOnly_tx hw s⟩
  · obtain ⟨off, B, rfl⟩ | ⟨n, rfl⟩ := isRxWrite_cases hw
    · exact ⟨_, hostWrite_rxBuf_idle hb hfit, writesOnly_rxBuf hfit hwf⟩
    · exact ⟨_, hostWrite_rxLen_idle hb hfit, writesOnly_rxLen n s⟩

/-! ### The statements -/

/-- Settles O47: the write's step is `hostWrite` with the turn taken, which changes no other register, and taking the
turn changes none. -/
theorem writeChangesOnlyTheRegisterWritten : Obligations.WriteChangesOnlyTheRegisterWritten := by
  unfold Obligations.WriteChangesOnlyTheRegisterWritten
  intro s rest w hm hs hidle _ hfit hwf
  have hfit' : fits (afterHostPick s rest) w := by cases w <;> exact hfit
  obtain ⟨s', hstep, hbuild, hhost, hturns, hresults, hreads⟩ :=
    hostWrite_writesOnly (s := afterHostPick s rest) hidle hfit' hwf
  refine ⟨s', (step_write hm hs).trans hstep, hbuild, hhost, hturns, hresults, fun r => ?_⟩
  have hpick : readReg (afterHostPick s rest) r = readReg s r := readReg_congr rfl rfl rfl r
  rw [hreads, hpick]
  cases writtenValue w r <;> rfl

/-- Settles O43: an idle channel accepts a 1, which makes its status `statStarted`, and drops a 0. -/
theorem startChangesTheStatusAlone : Obligations.StartChangesTheStatusAlone := by
  unfold Obligations.StartChangesTheStatusAlone
  rw [← statStarted_eq]
  refine ⟨fun s rest t hm hs hb ht => ?_, fun s rest hm hs hb => ?_, fun s rest hm h => ?_⟩
  · exact (step_startTx hm hs).trans (hostStartTx_one hb ht)
  · exact (step_startRx hm hs).trans (hostStartRx_one hb)
  · obtain ⟨hs, hb⟩ | ⟨hs, hb⟩ := h
    · exact (step_startTx hm hs).trans (hostStartTx_zero hb)
    · exact (step_startRx hm hs).trans (hostStartRx_zero hb)

/-- Settles O44: the host's step on a BUSY channel is refused, for each of the four kinds of access. -/
theorem busyChannelsRefuseWritesAndStarts : Obligations.BusyChannelsRefuseWritesAndStarts := by
  unfold Obligations.BusyChannelsRefuseWritesAndStarts
  intro s rest w hm
  refine ⟨fun hs hw hb => ?_, fun hs hw hb => ?_, fun v hs hb => ?_, fun v hs hb => ?_⟩
  · exact (step_write hm hs).trans (hostWrite_tx_busy hw hb)
  · exact (step_write hm hs).trans (hostWrite_rx_busy hw hb)
  · exact (step_startTx hm hs).trans (hostStartTx_busy v hb)
  · exact (step_startRx hm hs).trans (hostStartRx_busy v hb)

end Sys2Proof.Machine
end

section
/-!
PROOFS of 20_memory.md: the result of DEFRAME as a function of the build and the fetched bytes, and of both channels'
turns what they read and write; then the statements about the RX buffer (R63) and about the two channels (R75).
-/

namespace Sys2Proof.Machine

open Sys2Proof.Statements
open Sys2Proof.Config (Build)

/-! ### What the decoder answers on a frame (45_deframer.md R340, steps 1 to 4) -/

@[simp] theorem command_receivedInstr (c : Command) (cam : Byte) (B : List Byte) :
    command (receivedInstr c cam B) = c := by
  cases c <;> rfl

/-- All the decoder can answer on a buffer: one of its four errors, or the instruction of the frame's own operands. -/
theorem decode_rx_cases (F : List Byte) :
    (∃ e, decode (.rx F) = .error e ∧ e.code ∈ [1#4, 2#4, 3#4, 4#4]) ∨
    (∃ c, Command.fromByte (byteAt F 0) = some c ∧
      decode (.rx F) = .ok (receivedInstr c (byteAt F 1) (payloadSlice F))) := by
  have hd : decode (.rx F) = decodeFrame F := rfl
  rw [hd, decodeFrame]
  split
  · exact .inl ⟨.frameTooShort, rfl, by simp [Err.code]⟩
  · split
    · exact .inl ⟨.checksumMismatch, rfl, by simp [Err.code]⟩
    · cases hc : Command.fromByte (byteAt F 0) with
      | none => exact .inl ⟨.unknownCommand (byteAt F 0), rfl, by simp [Err.code]⟩
      | some c =>
        dsimp only
        split
        · exact .inl ⟨.lengthMismatch _ _, rfl, by simp [Err.code]⟩
        · exact .inr ⟨c, rfl, rfl⟩

/-! ### What the member checks raise (42_payloads.md R192) -/

theorem checkEnum_error {b : Build} {fid : FieldId} {v : Byte} {e : Err} (h : checkEnum b fid v = .error e) :
    e = .invalidEnumValue fid v := by
  unfold checkEnum at h
  split at h <;> cases h
  rfl

theorem Field.checkUnpacked_error {b : Build} {f : Field} {e : Err} (h : f.checkUnpacked b = .error e) :
    ∃ fid v, e = .invalidEnumValue fid v := by
  cases f with
  | enum8 fid v => exact ⟨fid, v, checkEnum_error h⟩
  | dsp d =>
    cases d with
    | iterations n => cases h
    | error c => exact ⟨.sysStatusDsp, c, checkEnum_error h⟩
  | s24 | u24 | u16 | u8 | flags8 | raw => cases h

theorem unpackError_some {b : Build} {p : Payload} {e : Err} (h : unpackError b p = some e) :
    ∃ fid v, e = .invalidEnumValue fid v := by
  obtain ⟨pre, post, hl, -⟩ := firstRaised_eq_some.1 h
  have hmem : Except.error e ∈ p.fields.map (fun f => f.2.checkUnpacked b) := by simp [hl]
  obtain ⟨f, -, hf⟩ := List.mem_map.1 hmem
  exact Field.checkUnpacked_error hf

/-! ### DEFRAME's result -/

/-- DEFRAME's result for the fetched bytes `F` (45_deframer.md R340), as `frameResult` is FRAME's: the decoder's error,
the payload's, or the message. -/
def deframeResult (b : Build) (F : List Byte) : Except Err Message :=
  match decode (.rx F) with
  | .error e => .error e
  | .ok i =>
    match unpackError b (readPayload (route (command i)) (payloadSlice F)) with
    | some e => .error e
    | none => .ok (messageOf (command i) (byteAt F 1) (readPayload (route (command i)) (payloadSlice F)))

/-- COMPLETE of DEFRAME with its result. -/
def completeRx : Except Err Message → State → State
  | .error e, s => reportRxError e s
  | .ok m, s => deliver m s

/-- DEFRAME raises only the error kinds 1 to 5 (45_deframer.md R340). -/
theorem deframeResult_error_code {b : Build} {F : List Byte} {e : Err} (h : deframeResult b F = .error e) :
    e.code ∈ [1#4, 2#4, 3#4, 4#4, 5#4] := by
  unfold deframeResult at h
  obtain ⟨e', hd, hcode⟩ | ⟨c, -, hd⟩ := decode_rx_cases F
  · simp only [hd, Except.error.injEq] at h
    subst h
    exact List.mem_append_left [5#4] hcode
  · simp only [hd, command_receivedInstr] at h
    cases hu : unpackError b (readPayload (route c) (payloadSlice F)) with
    | none => simp [hu] at h
    | some e' =>
      simp only [hu, Except.error.injEq] at h
      obtain ⟨fid, v, rfl⟩ := unpackError_some hu
      simp [← h, Err.code]

/-- The RX turn of a BUSY channel completes with DEFRAME's result, which depends on the build and on what was fetched
alone. -/
theorem rxTurn_busy {s : State} (hb : statBusy s.rx.stat = true) (hl : s.rx.len ≤ s.build.rxMaxLen) :
    rxTurn s = .next (completeRx (deframeResult s.build (readBytes s.rx.buf 0 s.rx.len)) s) := by
  obtain ⟨hlt, -⟩ | ⟨-, ⟨e, hd, hturn⟩ | ⟨i, hd, hturn⟩⟩ := rxTurn_busy_cases hb
  · omega
  · simp only [hturn, deframeResult, hd, completeRx]
  · obtain ⟨e, he, -⟩ | ⟨c, -, hc⟩ := decode_rx_cases (readBytes s.rx.buf 0 s.rx.len)
    · simp [he] at hd
    · obtain rfl : _ = i := Except.ok.inj (hc.symm.trans hd)
      rw [hturn, exec_receivedInstr]
      obtain ⟨hu, hrec⟩ | ⟨e, hu, hrec⟩ := receive_cases c (byteAt (readBytes s.rx.buf 0 s.rx.len) 1)
        (readPayload (route c) (payloadSlice (readBytes s.rx.buf 0 s.rx.len))) s
      · simp only [hrec, deframeResult, hd, command_receivedInstr, hu, completeRx]
      · simp only [hrec, deframeResult, hd, command_receivedInstr, hu, completeRx]

theorem step_rx_busy {s : State} (hm : mover s = .rx) (hb : statBusy s.rx.stat = true)
    (hl : s.rx.len ≤ s.build.rxMaxLen) :
    step s = .next (completeRx (deframeResult s.build (readBytes s.rx.buf 0 s.rx.len)) (afterPick s)) := by
  rw [step_eq, hm]
  exact rxTurn_busy (s := afterPick s) hb hl

/-- Settles O37: the frames of both states are the same bytes, so DEFRAME has one result, and it completes with it. -/
theorem deframeReadsOnlyTheFrame : Obligations.DeframeReadsOnlyTheFrame := by
  unfold Obligations.DeframeReadsOnlyTheFrame
  intro s t hms hmt hbs hbt hbuild hlen hle hbytes
  have hframe : readBytes t.rx.buf 0 t.rx.len = readBytes s.rx.buf 0 s.rx.len := by
    rw [← hlen]
    exact readBytes_congr fun a _ ha => (hbytes a (by omega)).symm
  have hs := step_rx_busy hms hbs hle
  have ht := step_rx_busy hmt hbt (by rwa [← hlen, ← hbuild])
  rw [hframe, ← hbuild] at ht
  refine ⟨_, _, hs, ht, ?_⟩
  cases hr : deframeResult s.build (readBytes s.rx.buf 0 s.rx.len) with
  | error e => exact ⟨rfl, rfl, rfl, .inr ⟨e, rfl, deframeResult_error_code hr, rfl⟩⟩
  | ok m => exact ⟨rfl, rfl, rfl, .inl ⟨rfl, rfl⟩⟩

/-! ### What a channel's turn reads and writes (10_state.md R20) -/

/-- The RX turn writes the RX registers alone, and what it writes there does not depend on the TX registers. -/
theorem rxTurn_frame {s b : State} (h : rxTurn s = .next b) :
    b = { s with rx := b.rx } ∧ ∀ t, rxTurn { s with tx := t } = .next { s with tx := t, rx := b.rx } := by
  cases hb : statBusy s.rx.stat with
  | false =>
    obtain rfl : s = b := by simpa [rxTurn_idle hb] using h
    exact ⟨rfl, fun t => rxTurn_idle hb⟩
  | true =>
    obtain ⟨-, hfault⟩ | ⟨hl, -⟩ := rxTurn_busy_cases hb
    · simp [hfault] at h
    · obtain rfl : _ = b := Host.Outcome.next.inj ((rxTurn_busy hb hl).symm.trans h)
      have hturn (t : TxChannel) := rxTurn_busy (s := { s with tx := t }) hb hl
      cases hr : deframeResult s.build (readBytes s.rx.buf 0 s.rx.len) with
      | error e => exact ⟨rfl, fun t => by rw [hturn, hr]; rfl⟩
      | ok m => exact ⟨rfl, fun t => by rw [hturn, hr]; rfl⟩

theorem transmit_error {s : State} {c : Byte} {t : Variant} {e : Err} (ht : Variant.ofTag s.tx.variant = some t)
    (hF : frameResult s c t = .error e) : transmit c s = .next (reportTxError e s) := by
  simp only [transmit, ht, hF]

theorem transmit_ok {s : State} {c : Byte} {t : Variant} {F : List Byte} (ht : Variant.ofTag s.tx.variant = some t)
    (hF : frameResult s c t = .ok F) (hl : F.length ≤ txBufCap) :
    transmit c s = .next (completeTx (writeBytes s.tx.buf 0 F) F s) := by
  have hw : memWrite txBufCap s.tx.buf 0 F = some (writeBytes s.tx.buf 0 F) := memWrite_eq_some.2 ⟨by omega, rfl⟩
  simp only [transmit, ht, hF, hw]

/-- FRAME writes the TX registers alone, and what it writes there does not depend on the RX registers. -/
theorem transmit_frame {c : Byte} {s a : State} (h : transmit c s = .next a) :
    a = { s with tx := a.tx } ∧ ∀ r, transmit c { s with rx := r } = .next { s with tx := a.tx, rx := r } := by
  obtain ⟨-, hs⟩ | ⟨t, ht, ⟨e, hF, hs⟩ | ⟨F, hF, hl, hs⟩ | ⟨F, -, -, hs⟩⟩ := transmit_cases c s
  · simp [hs] at h
  · obtain rfl : _ = a := Host.Outcome.next.inj (hs.symm.trans h)
    exact ⟨rfl, fun r => transmit_error (s := { s with rx := r }) ht hF⟩
  · obtain rfl : _ = a := Host.Outcome.next.inj (hs.symm.trans h)
    exact ⟨rfl, fun r => transmit_ok (s := { s with rx := r }) ht hF hl⟩
  · simp [hs] at h

/-- The TX turn writes the TX registers alone, and what it writes there does not depend on the RX registers. -/
theorem txTurn_frame {s a : State} (h : txTurn s = .next a) :
    a = { s with tx := a.tx } ∧ ∀ r, txTurn { s with rx := r } = .next { s with tx := a.tx, rx := r } := by
  cases hb : statBusy s.tx.stat with
  | false =>
    obtain rfl : s = a := by simpa [txTurn_idle hb] using h
    exact ⟨rfl, fun r => txTurn_idle hb⟩
  | true =>
    obtain ⟨ha, hr⟩ := transmit_frame ((txTurn_busy hb).symm.trans h)
    exact ⟨ha, fun r => (txTurn_busy (s := { s with rx := r }) hb).trans (hr r)⟩

/-- Settles O42: after either turn the other meets a state that differs in the first one's registers alone, so both
orders end with `a`'s TX and `b`'s RX registers. -/
theorem channelTurnsAreIndependent : Obligations.ChannelTurnsAreIndependent := by
  unfold Obligations.ChannelTurnsAreIndependent
  refine ⟨fun s a b ha hb => ?_, fun s a r ha => ?_, fun s b t hb => ?_⟩
  · obtain ⟨hatx, htx⟩ := txTurn_frame ha
    obtain ⟨hbrx, hrx⟩ := rxTurn_frame hb
    refine ⟨{ s with tx := a.tx, rx := b.rx }, ?_, ?_, rfl, rfl⟩
    · rw [hatx]
      exact hrx a.tx
    · rw [hbrx]
      exact htx b.rx
  · obtain ⟨hatx, htx⟩ := txTurn_frame ha
    rw [hatx]
    exact ⟨rfl, htx r⟩
  · obtain ⟨hbrx, hrx⟩ := rxTurn_frame hb
    rw [hbrx]
    exact ⟨rfl, hrx t⟩

end Sys2Proof.Machine
end

section
/-!
PROOFS of 30_encoding.md: the bytes that are commands (R96, R97), what DEFRAME and FRAME answer on a byte that is none,
and the frame as the tiling of its fields (R90, R94, R100–R109).
-/

namespace Sys2Proof.Machine

open Sys2Proof.Statements
open Sys2Proof.Config (Build)

/-! ### Command codes (R95, R96) -/

@[simp] theorem fromByte_toByte (c : Command) : Command.fromByte c.toByte = some c := by
  cases c <;> rfl

theorem fromByte_eq_some {b : Byte} {c : Command} : Command.fromByte b = some c ↔ c.toByte = b := by
  constructor
  · intro h
    simpa using List.find?_some h
  · rintro rfl
    exact fromByte_toByte c

theorem Command.mem_all (c : Command) : c ∈ Command.all := by
  cases c <;> decide

/-- The codes of the model's table are the fifteen of the rule, in the same order. -/
theorem map_toByte_all : Command.all.map Command.toByte = commandCodes := rfl

theorem mem_commandCodes {b : Byte} : b ∈ commandCodes ↔ ∃ c : Command, c.toByte = b := by
  simp [← map_toByte_all, Command.mem_all]

theorem isSome_fromByte {b : Byte} : (Command.fromByte b).isSome = true ↔ b ∈ commandCodes := by
  simp only [Option.isSome_iff_exists, fromByte_eq_some, mem_commandCodes]

/-- Settles O12: `from_byte` finds a command exactly when the byte is its code. -/
theorem commandCodesAreAPartialBijection : Obligations.CommandCodesAreAPartialBijection := by
  unfold Obligations.CommandCodesAreAPartialBijection
  exact ⟨fromByte_toByte, fun _ _ => fromByte_eq_some.1, fun _ => isSome_fromByte, by decide⟩

/-! ### Bytes that are no command (R97) -/

/-- The command codes lie outside the two reserved ranges. -/
theorem toNat_of_mem_commandCodes {b : Byte} (h : b ∈ commandCodes) :
    b.toNat ≤ 0x03 ∨ (0xD1 ≤ b.toNat ∧ b.toNat ≤ 0xDB) := by
  have hall : ∀ c ∈ commandCodes, c.toNat ≤ 0x03 ∨ (0xD1 ≤ c.toNat ∧ c.toNat ≤ 0xDB) := by decide
  exact hall b h

theorem fromByte_reserved {b : Byte} (h : (0x04 ≤ b.toNat ∧ b.toNat ≤ 0xD0) ∨ 0xDC ≤ b.toNat) :
    Command.fromByte b = none := by
  rw [← Option.not_isSome_iff_eq_none, isSome_fromByte]
  intro hmem
  have := toNat_of_mem_commandCodes hmem
  omega

/-- Step 3 of DEFRAME on a frame that passed steps 1 and 2 (45_deframer.md R340). -/
theorem decode_rx_unknownCommand {F : List Byte} (hl : 4 ≤ F.length)
    (hchk : checksum (F.take (F.length - 1)) = byteAt F (F.length - 1)) (hc : Command.fromByte (byteAt F 0) = none) :
    decode (.rx F) = .error (.unknownCommand (byteAt F 0)) := by
  show decodeFrame F = _
  rw [decodeFrame, if_neg (by omega), if_neg (by simp [hchk]), hc]

/-- No variant is framed with a byte that is no command (44_framer.md R302). -/
theorem isAllowed_eq_false {c : Byte} (hc : Command.fromByte c = none) (t : Variant) : isAllowed t c = false := by
  rw [isAllowed, List.any_eq_false]
  intro k _ hk
  simp [fromByte_eq_some.2 (beq_iff_eq.1 hk)] at hc

/-! ### A legal payload packs to its bytes (42_payloads.md R191, R192) -/

theorem checkEnum_of_isMember {b : Build} {fid : FieldId} {v : Byte} (h : isMember b fid v = true) :
    checkEnum b fid v = .ok () := if_pos h

theorem Field.pack_of_legal {b : Build} {f : Field} (h : f.legal b = true) : f.pack b = .ok f.bytes := by
  cases f with
  | s24 w => exact if_pos h
  | u24 w => exact if_pos h
  | enum8 fid v => rw [Field.pack, checkEnum_of_isMember h]; rfl
  | dsp d =>
    cases d with
    | iterations n => rfl
    | error c => rw [Field.pack, checkDsp, checkEnum_of_isMember (fid := .sysStatusDsp) h]; rfl
  | u16 | u8 | flags8 | raw => rfl

theorem encodePayload_of_legal {b : Build} {p : Payload} (h : p.legal b = true) : encodePayload b p = .ok p.bytes := by
  have hpack : ∀ f ∈ p.fields, f.2.pack b = .ok f.2.bytes := fun f hf =>
    Field.pack_of_legal (List.all_eq_true.1 h f hf)
  refine joinFields_eq_ok.2 ⟨p.fields.map (fun f => f.2.bytes), ?_, by rw [Payload.bytes, List.flatMap_def]⟩
  rw [List.map_map]
  exact List.map_congr_left hpack

/-- A legal payload with a command that does not frame it (44_framer.md R300, R302). -/
theorem frameResult_invalidCommand {s : State} {c : Byte} {t : Variant}
    (hp : (s.tx.records.select t).legal s.build = true) (ha : isAllowed t c = false) :
    frameResult s c t = .error (.invalidCommand (allowedMask t) c) := by
  rw [frameResult, encodePayload_of_legal hp]
  simp [ha]

/-- Settles O15: the byte is not among the codes, so DEFRAME stops at its command check and FRAME, past the legal
payload's, at its own. -/
theorem reservedCodesAreRejected : Obligations.ReservedCodesAreRejected := by
  unfold Obligations.ReservedCodesAreRejected
  intro b hb
  have hnone := fromByte_reserved hb
  refine ⟨hnone, fun F hl hF hchk => ?_, fun s t ht hp => ?_⟩
  · subst hF
    exact decode_rx_unknownCommand hl hchk hnone
  · exact transmit_error ht (frameResult_invalidCommand hp (isAllowed_eq_false hnone t))

/-! ### The frame and its length (R90, R94) -/

@[simp] theorem frameOf_length (c cam : Byte) (P : List Byte) : (frameOf c cam P).length = P.length + 3 := by
  simp [frameOf]

theorem payloadLen_bounds (v : Variant) : 1 ≤ v.payloadLen ∧ v.payloadLen ≤ 27 := by
  cases v <;> decide

/-- Settles O17: a frame is its payload and three bytes more, and a payload has 1 to 27 bytes. -/
theorem payloadLengthsAreFixed : Obligations.PayloadLengthsAreFixed := by
  unfold Obligations.PayloadLengthsAreFixed
  refine ⟨rfl, Payload.bytes_length, fun p c cam => ?_⟩
  have hbounds := payloadLen_bounds p.variant
  rw [frameOf_length, p.bytes_length]
  omega

/-! ### The fields tile the frame (R100–R109) -/

/-- The layout a list of fields has when its first stands at offset `off` and each next one right after the one before:
name, offset, width and type, as `layoutTable` gives them. -/
def fieldLayout (off : Nat) : List (String × Field) → List (String × Nat × Nat × String)
  | [] => []
  | f :: fs => (f.1, off, f.2.bytes.length, typeName f.2) :: fieldLayout (off + f.2.bytes.length) fs

/-- The rule's table is the layout of the variant's fields, from offset 2 on. -/
theorem layoutTable_eq_fieldLayout (p : Payload) : layoutTable p.variant = fieldLayout 2 p.fields := by
  cases p <;> rfl

theorem fieldLayout_names (off : Nat) (fs : List (String × Field)) :
    (fieldLayout off fs).map Prod.fst = fs.map Prod.fst := by
  induction fs generalizing off with
  | nil => rfl
  | cons f fs ih => simp [fieldLayout, ih]

theorem fieldLayout_widths_sum (off : Nat) (fs : List (String × Field)) :
    ((fieldLayout off fs).map (fun row => row.2.2.1)).sum = (fs.flatMap (fun f => f.2.bytes)).length := by
  induction fs generalizing off with
  | nil => rfl
  | cons f fs ih => simp [fieldLayout, ih]

/-- In the concatenation of the fields' bytes, after any bytes `pre` and before any `post`, each field is read back at
its offset and width of the layout from `pre.length` on. -/
theorem forall₂_fieldLayout (pre post : List Byte) (fs : List (String × Field)) :
    List.Forall₂ (fun f row => typeName f.2 = row.2.2.2 ∧
        ((pre ++ fs.flatMap (fun f => f.2.bytes) ++ post).drop row.2.1).take row.2.2.1 = f.2.bytes ∧
        f.2.bytes.length = row.2.2.1)
      fs (fieldLayout pre.length fs) := by
  induction fs generalizing pre with
  | nil => exact .nil
  | cons f fs ih =>
    refine .cons ⟨rfl, by simp, rfl⟩ ?_
    simpa using ih (pre ++ f.2.bytes)

/-- Settles O16: the table is the layout of the variant's fields after the two header bytes, and a frame is those two,
the fields' bytes and the checksum. -/
theorem fieldsStandAtTheirTableOffsets : Obligations.FieldsStandAtTheirTableOffsets := by
  unfold Obligations.FieldsStandAtTheirTableOffsets
  intro p c cam
  rw [layoutTable_eq_fieldLayout]
  refine ⟨(fieldLayout_names 2 p.fields).symm, ?_, rfl, ?_⟩
  · exact forall₂_fieldLayout [c, cam] [checksum (c :: cam :: p.bytes)] p.fields
  · rw [frameOf_length, fieldLayout_widths_sum, Payload.bytes]

end Sys2Proof.Machine
end

section
/-!
PROOFS of 40_field_packer.md: the value of big-endian bytes, the 24-bit word as its own sign extension (R140–R144),
the 16-bit and verbatim fields (R147, R148, R151), and what the member checks of enumeration and dsp fields raise
(R149, R150).
-/

namespace Sys2Proof.Machine

open Sys2Proof.Statements
open Sys2Proof.Config (Build)

/-! ### Bytes joined big-endian -/

theorem toNat_append_eq_add {m n : Nat} (x : BitVec m) (y : BitVec n) :
    (x ++ y).toNat = x.toNat * 2 ^ n + y.toNat := by
  rw [BitVec.toNat_append, ← Nat.shiftLeft_add_eq_or_of_lt y.isLt, Nat.shiftLeft_eq]

theorem toNat_append_bytes (b0 b1 b2 : Byte) :
    (b0 ++ b1 ++ b2).toNat = b0.toNat * 65536 + b1.toNat * 256 + b2.toNat := by
  rw [toNat_append_eq_add, toNat_append_eq_add]
  omega

theorem toInt_append_bytes (b0 b1 b2 : Byte) :
    (b0 ++ b1 ++ b2).toInt =
      (b0.toNat * 65536 + b1.toNat * 256 + b2.toNat : Int) - (if 128 ≤ b0.toNat then 16777216 else 0) := by
  have h1 := b1.isLt
  have h2 := b2.isLt
  rw [BitVec.toInt_eq_toNat_cond, toNat_append_bytes]
  split <;> split <;> omega

/-! ### The 24-bit value in its 32-bit word (R140–R144) -/

/-- The byte above a sign-extended 24-bit value is eight copies of its sign bit. -/
theorem topByte_signExtend (x : BitVec 24) :
    (x.signExtend 32).extractLsb' 24 8 = if x.msb then 0xFF#8 else 0x00#8 := by
  rw [BitVec.signExtend_eq_append_of_le (by decide), BitVec.extractLsb'_cast]
  exact BitVec.extractLsb'_append_eq_left

/-- A word in the signed range is the sign extension of its low 24 bits. -/
theorem signExtend_setWidth_of_s24InRange {w : Word} (h : s24InRange w = true) :
    (w.setWidth 24).signExtend 32 = w := by
  obtain ⟨hlo, hhi⟩ := s24InRange_iff.1 h
  apply BitVec.eq_of_toInt_eq
  rw [BitVec.toInt_signExtend_of_le (by decide), BitVec.toInt_eq_toNat_cond, BitVec.toNat_setWidth]
  rw [BitVec.toInt_eq_toNat_cond] at hlo hhi ⊢
  split at hlo <;> split <;> omega

theorem topByte_of_s24InRange {w : Word} (h : s24InRange w = true) :
    w.extractLsb' 24 8 = if w.getLsbD 23 then 0xFF#8 else 0x00#8 := by
  have hmsb : (w.setWidth 24).msb = w.getLsbD 23 := by simp [BitVec.msb_eq_getLsbD_last]
  have htop := topByte_signExtend (w.setWidth 24)
  rwa [signExtend_setWidth_of_s24InRange h, hmsb] at htop

/-- Settles O1: the range check decides, and a word in range is the sign extension of the three bytes emitted. -/
theorem signedPackEmitsThreeBytesOrRaisesRangeError : Obligations.SignedPackEmitsThreeBytesOrRaisesRangeError := by
  unfold Obligations.SignedPackEmitsThreeBytesOrRaisesRangeError
  refine fun w => ⟨fun h => ?_, fun h => ?_⟩
  · have hr := s24InRange_iff.2 h
    exact ⟨if_pos hr, topByte_of_s24InRange hr⟩
  · exact if_neg (mt s24InRange_iff.1 h)

/-- Settles O2: the range check decides. -/
theorem unsignedPackEmitsThreeBytesOrRaisesRangeError :
    Obligations.UnsignedPackEmitsThreeBytesOrRaisesRangeError := by
  unfold Obligations.UnsignedPackEmitsThreeBytesOrRaisesRangeError
  refine fun w => ⟨fun h => ?_, fun h => ?_⟩
  · exact if_pos (u24InRange_iff.2 h)
  · exact if_neg (mt u24InRange_iff.1 (Nat.not_le.2 h))

theorem setWidth_unpackS24 (b0 b1 b2 : Byte) : (unpackS24 b0 b1 b2).setWidth 24 = b0 ++ b1 ++ b2 := by
  rw [unpackS24, BitVec.signExtend_eq_append_of_le (by decide), BitVec.setWidth_cast]
  exact BitVec.setWidth_append_eq_right

theorem topByte_unpackS24 (b0 b1 b2 : Byte) :
    (unpackS24 b0 b1 b2).extractLsb' 24 8 = if b0.getLsbD 7 then 0xFF#8 else 0x00#8 := by
  have hmsb : (b0 ++ b1 ++ b2).msb = b0.getLsbD 7 := by
    rw [BitVec.msb_append, BitVec.msb_append]
    exact BitVec.msb_eq_getLsbD_last b0
  rw [unpackS24, topByte_signExtend, hmsb]

theorem toInt_unpackS24 (b0 b1 b2 : Byte) :
    (unpackS24 b0 b1 b2).toInt =
      (b0.toNat * 65536 + b1.toNat * 256 + b2.toNat : Int) - (if 128 ≤ b0.toNat then 16777216 else 0) := by
  rw [unpackS24, BitVec.toInt_signExtend_of_le (by decide), toInt_append_bytes]

theorem toInt_unpackS24_bounds (b0 b1 b2 : Byte) :
    -8388608 ≤ (unpackS24 b0 b1 b2).toInt ∧ (unpackS24 b0 b1 b2).toInt ≤ 8388607 := by
  rw [unpackS24, BitVec.toInt_signExtend_of_le (by decide)]
  exact ⟨BitVec.le_toInt _, Int.le_of_lt_add_one (BitVec.toInt_lt (x := b0 ++ b1 ++ b2))⟩

theorem toNat_unpackU24 (b0 b1 b2 : Byte) :
    (unpackU24 b0 b1 b2).toNat = b0.toNat * 65536 + b1.toNat * 256 + b2.toNat := by
  rw [unpackU24, BitVec.toNat_setWidth_of_le (by decide), toNat_append_bytes]

/-- Settles O3: the word is the sign or the zero extension of the 24 bits, whose value is that of the three bytes. -/
theorem unpackExtendsTheThreeBytes : Obligations.UnpackExtendsTheThreeBytes := by
  unfold Obligations.UnpackExtendsTheThreeBytes
  intro b0 b1 b2
  obtain ⟨hlo, hhi⟩ := toInt_unpackS24_bounds b0 b1 b2
  have hval := toNat_unpackU24 b0 b1 b2
  exact ⟨setWidth_unpackS24 b0 b1 b2, topByte_unpackS24 b0 b1 b2, toInt_unpackS24 b0 b1 b2, hlo, hhi, hval,
    by omega⟩

/-! ### 16-bit and verbatim fields (R147, R148, R151) -/

theorem unpackU16_packU16 (h : Half) : unpackU16 (h.extractLsb' 8 8) (h.extractLsb' 0 8) = h :=
  BitVec.extractLsb'_append_extractLsb'

theorem packU16_unpackU16 (b0 b1 : Byte) : packU16 (unpackU16 b0 b1) = [b0, b1] := by
  have hhi : (unpackU16 b0 b1).extractLsb' 8 8 = b0 := BitVec.extractLsb'_append_eq_left
  have hlo : (unpackU16 b0 b1).extractLsb' 0 8 = b1 := BitVec.extractLsb'_append_eq_right
  rw [packU16, hhi, hlo]

/-- Consecutive bytes read one by one are a slice. -/
theorem map_byteAt_range {B : List Byte} {k n : Nat} (h : k + n ≤ B.length) :
    (List.range n).map (fun i => byteAt B (k + i)) = (B.drop k).take n := by
  apply List.ext_getElem
  · rw [List.length_map, List.length_range, List.length_take, List.length_drop]
    omega
  · intro i h1 _
    rw [List.length_map, List.length_range] at h1
    have hi : k + i < B.length := by omega
    simp [byteAt, hi]

/-- The data of an EEPROM payload are the sixteen bytes after the address (42_payloads.md R213). -/
theorem toBytes_readEepromData {B : List Byte} (h : B.length = 18) : (readEepromData B).data.toBytes = B.drop 2 := by
  calc (readEepromData B).data.toBytes
    _ = (List.range 16).map (fun i => byteAt B (2 + i)) := rfl
    _ = (B.drop 2).take 16 := map_byteAt_range (by omega)
    _ = B.drop 2 := List.take_of_length_le (by simp [h])

/-- Settles O5: none of these fields has a check, and the two bytes of a 16-bit field are its halves. -/
theorem sixteenBitAndVerbatimFieldsRoundTrip : Obligations.SixteenBitAndVerbatimFieldsRoundTrip := by
  unfold Obligations.SixteenBitAndVerbatimFieldsRoundTrip
  exact ⟨fun b h => ⟨Field.pack_of_legal rfl, unpackU16_packU16 h⟩,
    fun b0 b1 => ⟨toNat_append_eq_add b0 b1, packU16_unpackU16 b0 b1⟩,
    fun b v => ⟨Field.pack_of_legal rfl, Field.pack_of_legal rfl⟩,
    fun b r => ⟨Field.pack_of_legal rfl, r.toBytes_length⟩,
    fun B => toBytes_readEepromData⟩

/-! ### Enumeration fields (R149) -/

theorem checkEnum_of_not_isMember {b : Build} {fid : FieldId} {v : Byte} (h : isMember b fid v = false) :
    checkEnum b fid v = .error (.invalidEnumValue fid v) := if_neg (by simp [h])

/-- Packing makes the check of unpacking first, so it raises the same error. -/
theorem Field.pack_of_checkUnpacked_error {b : Build} {f : Field} {e : Err} (h : f.checkUnpacked b = .error e) :
    f.pack b = .error e := by
  cases f with
  | enum8 fid v => exact congrArg (Except.map fun _ => [v]) h
  | dsp d => exact congrArg (Except.map fun _ => [dspByte d]) h
  | s24 | u24 | u16 | u8 | flags8 | raw => cases h

/-- Settles O6: the member sets are those of R384, and the one check of both directions decides. -/
theorem enumerationFieldsRaiseOnNonMembers : Obligations.EnumerationFieldsRaiseOnNonMembers := by
  unfold Obligations.EnumerationFieldsRaiseOnNonMembers
  refine fun b fid v => ⟨isSome_fromByte, isSysStatus_iff, isDiagMode_iff, fun h => ?_, fun h => ?_⟩
  · exact ⟨Field.pack_of_legal h, checkEnum_of_isMember h⟩
  · have herr : (Field.enum8 fid v).checkUnpacked b = .error (.invalidEnumValue fid v) := checkEnum_of_not_isMember h
    exact ⟨Field.pack_of_checkUnpacked_error herr, herr⟩

/-! ### The dsp field (R150) -/

theorem msb_byte_eq_true_iff {v : Byte} : v.msb = true ↔ 128 ≤ v.toNat := by
  simp [BitVec.msb_eq_decide]

theorem readDsp_of_lt {v : Byte} (h : v.toNat < 128) : readDsp v = .iterations (v.setWidth 7) :=
  if_neg (mt msb_byte_eq_true_iff.1 (Nat.not_le.2 h))

theorem readDsp_of_ge {v : Byte} (h : 128 ≤ v.toNat) : readDsp v = .error v :=
  if_pos (msb_byte_eq_true_iff.2 h)

theorem toNat_dspByte_iterations (n : BitVec 7) : (dspByte (.iterations n)).toNat = n.toNat :=
  BitVec.toNat_setWidth_of_le (by decide)

theorem readDsp_dspByte_iterations (n : BitVec 7) : readDsp (dspByte (.iterations n)) = .iterations n := by
  rw [readDsp_of_lt (by rw [toNat_dspByte_iterations]; exact n.isLt)]
  congr 1
  exact BitVec.setWidth_setWidth_of_le n (by decide)

theorem toNat_of_isDspError {b : Build} {c : Byte} (h : b.isDspError c = true) : 128 ≤ c.toNat :=
  msb_byte_eq_true_iff.1 (isDspError_msb h)

theorem isDspError_internalErrorCode (b : Build) : b.isDspError b.internalErrorCode = true := by
  have hmsb : b.internalErrorCode.msb = true := BitVec.msb_append
  have hlow : b.internalErrorCode.setWidth 7 = b.dspInternalError := BitVec.setWidth_append_eq_right
  simp [Build.isDspError, hmsb, hlow]

/-- Settles O7: bit 7 splits the byte, a count has it clear and every member code has it set. -/
theorem dspByteSplitsBySign : Obligations.DspByteSplitsBySign := by
  unfold Obligations.DspByteSplitsBySign
  refine fun b v n c => ⟨fun h => ⟨_, readDsp_of_lt h, ?_⟩, readDsp_of_ge, ?_, rfl, fun h => ?_, fun h => ?_,
    toNat_of_isDspError, isDspError_internalErrorCode b⟩
  · rw [BitVec.toNat_setWidth, Nat.mod_eq_of_lt h]
  · exact ⟨_, rfl, toNat_dspByte_iterations n, readDsp_dspByte_iterations n⟩
  · exact ⟨Field.pack_of_legal h, readDsp_of_ge (toNat_of_isDspError h),
      checkEnum_of_isMember (fid := .sysStatusDsp) h⟩
  · have herr : (Field.dsp (.error c)).checkUnpacked b = .error (.invalidEnumValue .sysStatusDsp c) :=
      checkEnum_of_not_isMember (fid := .sysStatusDsp) h
    exact ⟨Field.pack_of_checkUnpacked_error herr, herr⟩

end Sys2Proof.Machine
end

section
/-!
PROOFS of 41_checksum.md: what one byte does to the accumulator's low byte, and the checksum's recursion over appended
bytes (R170).
-/

namespace Sys2Proof.Machine

/-- The 16-bit subtraction may underflow, but its low byte is the 8-bit subtraction of the low bytes (R171), since
256 divides 2^16. -/
theorem lowByte_checksumStep (acc : BitVec 16) (b : Byte) :
    (checksumStep acc b).extractLsb' 0 8 = acc.extractLsb' 0 8 - b := by
  apply BitVec.eq_of_toNat_eq
  simp only [checksumStep, BitVec.truncate_eq_setWidth, BitVec.extractLsb'_toNat, BitVec.toNat_setWidth,
    BitVec.toNat_sub, Nat.shiftRight_zero]
  omega

@[simp] theorem checksum_nil : checksum [] = 0x40#8 := rfl

theorem checksum_append_singleton (B : List Byte) (b : Byte) : checksum (B ++ [b]) = checksum B - b := by
  rw [checksum, List.foldl_append]
  exact lowByte_checksumStep _ b

/-- Settles O8: the fold's last step subtracts the appended byte from the low byte, and the fixed strings compute. -/
theorem checksumSubtractsEveryByteFromTheSeed : Obligations.ChecksumSubtractsEveryByteFromTheSeed := by
  unfold Obligations.ChecksumSubtractsEveryByteFromTheSeed
  exact ⟨checksum_nil, checksum_append_singleton, rfl, rfl, rfl⟩

end Sys2Proof.Machine
end

section
/-!
PROOFS of 42_payloads.md: a field packs exactly when it is legal, and the lists of packed and of checked fields split at
the first field that raises (R191, R192).
-/

namespace Sys2Proof.Machine

open Sys2Proof.Statements
open Sys2Proof.Config (Build)

/-! ### A field packs exactly when it is legal (10_state.md R23) -/

/-- A check with a result succeeds only when its condition holds. -/
theorem of_ite_eq_ok {α : Type} {c : Prop} [Decidable c] {x y : α} {e : Err}
    (h : (if c then .ok x else .error e) = Except.ok y) : c := by
  by_contra hc
  simp [hc] at h

theorem checkEnum_eq_ok {b : Build} {fid : FieldId} {v : Byte} :
    checkEnum b fid v = .ok () ↔ isMember b fid v = true :=
  ⟨of_ite_eq_ok, checkEnum_of_isMember⟩

/-- A check followed by a fixed result succeeds only when the check does. -/
theorem map_const_eq_ok {α : Type} {r : Except Err Unit} {x y : α} (h : r.map (fun _ => x) = .ok y) : r = .ok () := by
  cases r with
  | error e => cases h
  | ok u => rfl

theorem Field.legal_of_pack_ok {b : Build} {f : Field} {B : List Byte} (h : f.pack b = .ok B) : f.legal b = true := by
  cases f with
  | s24 w => exact of_ite_eq_ok h
  | u24 w => exact of_ite_eq_ok h
  | enum8 fid v => exact checkEnum_eq_ok.1 (map_const_eq_ok h)
  | dsp d =>
    cases d with
    | iterations n => rfl
    | error c => exact checkEnum_eq_ok (fid := .sysStatusDsp).1 (map_const_eq_ok h)
  | u16 | u8 | flags8 | raw => rfl

theorem Field.exists_pack_ok_iff {b : Build} {f : Field} : (∃ B, f.pack b = .ok B) ↔ f.legal b = true :=
  ⟨fun ⟨_, h⟩ => Field.legal_of_pack_ok h, fun h => ⟨_, Field.pack_of_legal h⟩⟩

/-! ### The first field that raises, in table order (R192) -/

/-- All fields of a list pack exactly when all are legal. -/
theorem exists_map_pack_eq_iff {b : Build} {fs : List (String × Field)} :
    (∃ parts : List (List Byte), fs.map (fun f => f.2.pack b) = parts.map .ok) ↔ ∀ f ∈ fs, f.2.legal b = true := by
  calc (∃ parts : List (List Byte), fs.map (fun f => f.2.pack b) = parts.map .ok)
    _ ↔ fs.map (fun f => f.2.pack b) ∈ Set.range (List.map Except.ok) := exists_congr fun _ => eq_comm
    _ ↔ ∀ f ∈ fs, ∃ B, Except.ok B = f.2.pack b := by
      simp only [Set.range_list_map, Set.mem_ofPred_eq, List.forall_mem_map, Set.mem_range]
    _ ↔ ∀ f ∈ fs, f.2.legal b = true :=
      forall₂_congr fun f _ => (exists_congr fun _ => eq_comm).trans Field.exists_pack_ok_iff

theorem map_eq_append_cons_iff {α β : Type} {g : α → β} {l : List α} {ys zs : List β} {y : β} :
    l.map g = ys ++ y :: zs ↔
      ∃ pre a post, l = pre ++ a :: post ∧ pre.map g = ys ∧ g a = y ∧ post.map g = zs := by
  constructor
  · intro h
    obtain ⟨pre, rest, rfl, hpre, hrest⟩ := List.map_eq_append_iff.1 h
    obtain ⟨a, post, rfl, ha, hpost⟩ := List.map_eq_cons_iff.1 hrest
    exact ⟨pre, a, post, rfl, hpre, ha, hpost⟩
  · rintro ⟨pre, a, post, rfl, rfl, rfl, rfl⟩
    rw [List.map_append, List.map_cons]

theorem encodePayload_eq_error {b : Build} {p : Payload} {e : Err} :
    encodePayload b p = .error e ↔
      ∃ pre f post, p.fields = pre ++ f :: post ∧ (∀ g ∈ pre, g.2.legal b = true) ∧ f.2.pack b = .error e := by
  rw [encodePayload, joinFields_eq_error]
  constructor
  · rintro ⟨parts, tail, h⟩
    obtain ⟨pre, f, post, hfields, hpre, hf, -⟩ := map_eq_append_cons_iff.1 h
    exact ⟨pre, f, post, hfields, exists_map_pack_eq_iff.1 ⟨parts, hpre⟩, hf⟩
  · rintro ⟨pre, f, post, hfields, hlegal, hf⟩
    obtain ⟨parts, hpre⟩ := exists_map_pack_eq_iff.2 hlegal
    exact ⟨parts, _, map_eq_append_cons_iff.2 ⟨pre, f, post, hfields, hpre, hf, rfl⟩⟩

theorem unpackError_eq_some {b : Build} {p : Payload} {e : Err} :
    unpackError b p = some e ↔
      ∃ pre f post, p.fields = pre ++ f :: post ∧ (∀ g ∈ pre, g.2.checkUnpacked b = .ok ()) ∧
        f.2.checkUnpacked b = .error e := by
  rw [unpackError, firstRaised_eq_some]
  constructor
  · rintro ⟨oks, tail, h, hoks⟩
    obtain ⟨pre, f, post, hfields, rfl, hf, -⟩ := map_eq_append_cons_iff.1 h
    exact ⟨pre, f, post, hfields, List.forall_mem_map.1 hoks, hf⟩
  · rintro ⟨pre, f, post, hfields, hpre, hf⟩
    exact ⟨_, _, map_eq_append_cons_iff.2 ⟨pre, f, post, hfields, rfl, hf, rfl⟩, List.forall_mem_map.2 hpre⟩

/-! ### An illegal payload raises (R191) -/

theorem Payload.legal_of_encodePayload_ok {b : Build} {p : Payload} {B : List Byte} (h : encodePayload b p = .ok B) :
    p.legal b = true := by
  obtain ⟨parts, hparts, -⟩ := joinFields_eq_ok.1 h
  exact List.all_eq_true.2 (exists_map_pack_eq_iff.1 ⟨parts, hparts⟩)

theorem encodePayload_error_of_not_legal {b : Build} {p : Payload} (h : p.legal b = false) :
    ∃ e, encodePayload b p = .error e := by
  cases hp : encodePayload b p with
  | error e => exact ⟨e, rfl⟩
  | ok B => simp [Payload.legal_of_encodePayload_ok hp] at h

/-- Settles O22: a payload packs exactly when it is legal, and otherwise the list of its fields splits at the first that
raises. -/
theorem firstBadFieldInTableOrderIsReported : Obligations.FirstBadFieldInTableOrderIsReported := by
  unfold Obligations.FirstBadFieldInTableOrderIsReported
  exact fun b p => ⟨fun h => ⟨p.bytes, encodePayload_of_legal h, p.bytes_length⟩, encodePayload_error_of_not_legal,
    fun _ => encodePayload_eq_error, fun _ => unpackError_eq_some⟩

end Sys2Proof.Machine
end

section
/-!
PROOFS of 43_commands.md: the routing table (R260), and the two uses of SYSTEM_STATUS (R264): FRAME on a legal request
whose command the variant allows, and DEFRAME's check of the payload's length.
-/

namespace Sys2Proof.Machine

open Sys2Proof.Statements

/-! ### The routing table (R260) -/

theorem Variant.mem_all (v : Variant) : v ∈ Variant.all := by
  cases v <;> decide

/-- Settles O11: both lists are fixed and complete, so the tables are read off row by row. -/
theorem routingFollowsItsTable : Obligations.RoutingFollowsItsTable := by
  unfold Obligations.RoutingFollowsItsTable
  exact ⟨rfl, Command.mem_all, rfl, Variant.mem_all⟩

/-! ### FRAME on a legal request (44_framer.md R300, R305) -/

theorem statCompleted_none : statCompleted none = 0x02#8 := by decide

theorem completeTx_eq_framed (F : List Byte) (s : State) : completeTx (writeBytes s.tx.buf 0 F) F s = framed s F := by
  rw [completeTx, statCompleted_none, framed]

/-- A legal payload with a command that frames it. -/
theorem frameResult_of_legal {s : State} {c : Byte} {t : Variant}
    (hp : (s.tx.records.select t).legal s.build = true) (ha : isAllowed t c = true) :
    frameResult s c t = .ok (frameOf c s.tx.cameraId (s.tx.records.select t).bytes) := by
  rw [frameResult, encodePayload_of_legal hp]
  simp [ha]

/-- A frame fits `TX_BUF` (20_memory.md R60). -/
theorem frameOf_bytes_length_le (c cam : Byte) (p : Payload) : (frameOf c cam p.bytes).length ≤ txBufCap := by
  have hbounds := payloadLen_bounds p.variant
  rw [frameOf_length, p.bytes_length, txBufCap]
  omega

theorem transmit_of_legal {s : State} {c : Byte} {t : Variant} (ht : Variant.ofTag s.tx.variant = some t)
    (hp : (s.tx.records.select t).legal s.build = true) (ha : isAllowed t c = true) :
    transmit c s = .next (framed s (frameOf c s.tx.cameraId (s.tx.records.select t).bytes)) := by
  rw [transmit_ok ht (frameResult_of_legal hp ha) (frameOf_bytes_length_le ..), completeTx_eq_framed]

/-! ### The poll request (R264) -/

/-- A `Poll` record is legal exactly when its byte is a command code (42_payloads.md R200). -/
theorem legal_poll_iff {b : Config.Build} {p : Poll} : (Payload.poll p).legal b = true ↔ p.command ∈ commandCodes := by
  rw [← isSome_fromByte]
  simp [Payload.legal, Payload.fields, Field.legal, isMember, isCommandCode]

/-- Step 4 of DEFRAME on a frame that passed steps 1 to 3 (45_deframer.md R340). -/
theorem decode_rx_lengthMismatch {F : List Byte} {c : Command} (hl : 4 ≤ F.length)
    (hchk : checksum (F.take (F.length - 1)) = byteAt F (F.length - 1)) (hc : Command.fromByte (byteAt F 0) = some c)
    (hn : (payloadSlice F).length ≠ (route c).payloadLen) :
    decode (.rx F) = .error (.lengthMismatch (route c).payloadLen (payloadSlice F).length) := by
  show decodeFrame F = _
  rw [decodeFrame, if_neg (by omega), if_neg (by simp [hchk]), hc]
  exact if_pos hn

/-- What is decoded is the received form of the command the first byte names. -/
theorem decode_rx_eq_receivedInstr {F : List Byte} {i : Instr} {c : Command} (h : decode (.rx F) = .ok i)
    (hc : byteAt F 0 = c.toByte) : i = receivedInstr c (byteAt F 1) (payloadSlice F) := by
  obtain ⟨e, he, -⟩ | ⟨c', hc', hd⟩ := decode_rx_cases F
  · simp [he] at h
  · rw [hc, fromByte_toByte] at hc'
    cases hc'
    exact Except.ok.inj (h.symm.trans hd)

/-- Settles O31: the record is legal and `Poll` allows SYSTEM_STATUS, so FRAME stores the four bytes; DEFRAME routes
their first byte to SystemStatus, whose 13 bytes the one byte of payload is not. -/
theorem statusPollRequestIsFramedAndNotDeframed : Obligations.StatusPollRequestIsFramedAndNotDeframed := by
  unfold Obligations.StatusPollRequestIsFramedAndNotDeframed
  refine ⟨fun s hv hcmd => ?_, fun cam x => ?_, fun F i hd h0 => ?_⟩
  · have ht : Variant.ofTag s.tx.variant = some .poll := by rw [hv]; rfl
    have hframe := transmit_of_legal (c := Command.systemStatus.toByte) ht (legal_poll_iff.2 hcmd) (by decide)
    exact (exec_requestInstr .systemStatus s).trans hframe
  · exact decode_rx_lengthMismatch (c := .systemStatus) (by simp) rfl (fromByte_toByte .systemStatus)
      (show 1 ≠ 13 by decide)
  · exact ⟨_, _, decode_rx_eq_receivedInstr (c := .systemStatus) hd h0⟩

end Sys2Proof.Machine
end

section
/-!
PROOFS of 44_framer.md: the compatibility table as pairs (R302), the errors of the pack rules (R300), and what FRAME does
with a request whose payload or command is bad (R303); then the refusals of R301 and R433.
-/

namespace Sys2Proof.Machine

open Sys2Proof.Statements
open Sys2Proof.Config (Build)

/-! ### The compatibility table (R302) -/

/-- The table of pairs is the allowed sets, variant by variant. -/
theorem compatiblePairs_eq :
    compatiblePairs = Variant.all.flatMap (fun t => (allowed t).map (fun k => (t, k.toByte))) := rfl

theorem isAllowed_iff {t : Variant} {c : Byte} : isAllowed t c = true ↔ (t, c) ∈ compatiblePairs := by
  simp [compatiblePairs_eq, isAllowed, Variant.mem_all]

theorem isAllowed_eq_false_iff {t : Variant} {c : Byte} : isAllowed t c = false ↔ (t, c) ∉ compatiblePairs := by
  rw [← isAllowed_iff, Bool.not_eq_true]

theorem encodePayload_eq_ok {b : Build} {p : Payload} {P : List Byte} :
    encodePayload b p = .ok P ↔ p.legal b = true ∧ p.bytes = P := by
  constructor
  · intro h
    have hp := Payload.legal_of_encodePayload_ok h
    exact ⟨hp, Except.ok.inj ((encodePayload_of_legal hp).symm.trans h)⟩
  · rintro ⟨hp, rfl⟩
    exact encodePayload_of_legal hp

/-- Settles O14: a payload that packs is legal and packs to its bytes, so the command's check alone decides. -/
theorem framerAcceptsExactlyTheCompatiblePairs : Obligations.FramerAcceptsExactlyTheCompatiblePairs := by
  unfold Obligations.FramerAcceptsExactlyTheCompatiblePairs
  intro s t c P hP
  obtain ⟨hp, rfl⟩ := encodePayload_eq_ok.1 hP
  exact ⟨fun h => frameResult_of_legal hp (isAllowed_iff.2 h),
    fun h => frameResult_invalidCommand hp (isAllowed_eq_false_iff.2 h)⟩

/-! ### The errors a pack rule raises (R300) -/

/-- The two kinds of error a payload's fields can raise on packing. -/
def IsPackError (e : Err) : Prop :=
  (∃ v lo hi, e = .rangeError v lo hi) ∨ (∃ fid v, e = .invalidEnumValue fid v)

/-- A check with a result raises nothing but its own error. -/
theorem eq_of_ite_eq_error {α : Type} {c : Prop} [Decidable c] {x : α} {e e' : Err}
    (h : (if c then .ok x else .error e) = Except.error e') : e' = e := by
  split at h <;> cases h
  rfl

/-- A check followed by a result raises nothing but the check's error. -/
theorem map_eq_error {α β : Type} {r : Except Err α} {g : α → β} {e : Err} (h : r.map g = .error e) :
    r = .error e := by
  cases r with
  | error e' => cases h; rfl
  | ok u => cases h

theorem Field.isPackError_of_pack {b : Build} {f : Field} {e : Err} (h : f.pack b = .error e) : IsPackError e := by
  cases f with
  | s24 w => exact .inl ⟨_, _, _, eq_of_ite_eq_error h⟩
  | u24 w => exact .inl ⟨_, _, _, eq_of_ite_eq_error h⟩
  | enum8 fid v => exact .inr ⟨fid, v, checkEnum_error (map_eq_error h)⟩
  | dsp d => exact .inr (Field.checkUnpacked_error (f := .dsp d) (map_eq_error h))
  | u16 | u8 | flags8 | raw => cases h

theorem isPackError_of_encodePayload {b : Build} {p : Payload} {e : Err} (h : encodePayload b p = .error e) :
    IsPackError e := by
  obtain ⟨-, f, -, -, -, hf⟩ := encodePayload_eq_error.1 h
  exact Field.isPackError_of_pack hf

/-! ### FRAME on a bad request (R303) -/

section
variable {s : State} {c : Byte} {t : Variant} (ht : Variant.ofTag s.tx.variant = some t)
include ht

/-- The payload is checked before the command, so its error is the answer whatever the command byte. -/
theorem transmit_of_encodePayload_error {e : Err} (hP : encodePayload s.build (s.tx.records.select t) = .error e) :
    transmit c s = .next (txFailed s e) :=
  transmit_error ht (by rw [frameResult, hP])

theorem transmit_of_not_mem_compatiblePairs (hp : (s.tx.records.select t).legal s.build = true)
    (hc : (t, c) ∉ compatiblePairs) : transmit c s = .next (txFailed s (.invalidCommand (allowedMask t) c)) :=
  transmit_error ht (frameResult_invalidCommand hp (isAllowed_eq_false_iff.2 hc))

end

theorem step_tx_busy {s : State} (hm : mover s = .tx) (hb : statBusy s.tx.stat = true) :
    step s = transmit s.tx.command (afterPick s) := by
  rw [step_eq, hm]
  exact txTurn_busy (s := afterPick s) hb

/-- Settles O36: the step transmits the command byte in the state with the turn taken; a payload that packs is legal, so
the three ends of the pseudocode are the three answers of FRAME. -/
theorem txStepIsTheFramePseudocode : Obligations.TxStepIsTheFramePseudocode := by
  unfold Obligations.TxStepIsTheFramePseudocode
  rintro s t c hm hb ht rfl
  refine ⟨?_, fun _ => isPackError_of_encodePayload⟩
  rw [step_tx_busy hm hb]
  cases hP : encodePayload s.build (s.tx.records.select t) with
  | error e => exact transmit_of_encodePayload_error (s := afterPick s) ht hP
  | ok P =>
    obtain ⟨hp, rfl⟩ := encodePayload_eq_ok.1 hP
    dsimp only
    split
    next hc => exact transmit_of_legal (s := afterPick s) ht hp (isAllowed_iff.2 hc)
    next hc => exact transmit_of_not_mem_compatiblePairs (s := afterPick s) ht hp hc

/-! ### The frame form of an instruction (R303) -/

/-- The frame forms are the fifteen requests, in the order of the code table. -/
theorem frameForms_eq : frameForms = Command.all.map requestInstr := rfl

@[simp] theorem command_requestInstr (c : Command) : command (requestInstr c) = c := by
  cases c <;> rfl

theorem exec_of_mem_frameForms {i : Instr} (hi : i ∈ frameForms) (s : State) :
    exec i s = transmit (command i).toByte s := by
  rw [frameForms_eq] at hi
  obtain ⟨c, -, rfl⟩ := List.mem_map.1 hi
  rw [exec_requestInstr, command_requestInstr]

/-- Settles O30: executing a frame form is FRAME with its command byte, which checks the payload first. -/
theorem badRequestsReportPayloadThenCommand : Obligations.BadRequestsReportPayloadThenCommand := by
  unfold Obligations.BadRequestsReportPayloadThenCommand
  intro s t ht i hi
  rw [exec_of_mem_frameForms hi]
  exact ⟨fun e he => ⟨transmit_of_encodePayload_error ht he, isPackError_of_encodePayload he⟩,
    transmit_of_not_mem_compatiblePairs ht⟩

/-! ### Tags and lengths the host cannot start with (R301; 70_reset_and_hazards.md R433) -/

theorem Variant.tag_lt (v : Variant) : v.tag < 10 := by
  cases v <;> decide

theorem ofTag_eq_none {n : BitVec 4} (h : 10 ≤ n.toNat) : Variant.ofTag n = none := by
  refine List.find?_eq_none.2 fun v _ hv => ?_
  have hlt := v.tag_lt
  have htag : v.tag = n.toNat := beq_iff_eq.1 hv
  omega

theorem tag_of_ofTag {n : BitVec 4} {v : Variant} (h : Variant.ofTag n = some v) : v.tag = n.toNat := by
  simpa using List.find?_some h

theorem tags_eq_range : Variant.all.map Variant.tag = List.range 10 := rfl

theorem exists_ofTag_eq_some {n : BitVec 4} (h : n.toNat < 10) :
    ∃ v, Variant.ofTag n = some v ∧ v.tag = n.toNat := by
  have hmem : n.toNat ∈ Variant.all.map Variant.tag := by rw [tags_eq_range]; exact List.mem_range.2 h
  obtain ⟨w, hw, htag⟩ := List.mem_map.1 hmem
  obtain ⟨v, hv⟩ : ∃ v, Variant.ofTag n = some v :=
    Option.isSome_iff_exists.1 (List.find?_isSome.2 ⟨w, hw, by simpa using htag⟩)
  exact ⟨v, hv, tag_of_ofTag hv⟩

theorem hostStartTx_noSuchVariant {s : State} (hb : statBusy s.tx.stat = false)
    (ht : Variant.ofTag s.tx.variant = none) : hostStartTx true s = .refused .noSuchVariant := by
  simp [hostStartTx, hb, ht]

theorem hostWrite_rxLen_tooLarge {n : Nat} {s : State} (hb : statBusy s.rx.stat = false)
    (hn : s.build.rxMaxLen < n) : hostWrite (.rxLen n) s = .refused .rxLenTooLarge := by
  simp [hostWrite, writeRxLen, hb, hn]

/-- Settles O45: the tags are 0 to 9, so one from 10 on names no variant; the host's step meets the registers as they
are and is refused. -/
theorem unnamedVariantsAndOversizedLengthsAreRefused : Obligations.UnnamedVariantsAndOversizedLengthsAreRefused := by
  unfold Obligations.UnnamedVariantsAndOversizedLengthsAreRefused
  refine ⟨fun s rest hm hs hb hv => ?_, fun s rest n hm hs hb hn => ?_, fun _ => exists_ofTag_eq_some⟩
  · rw [step_startTx hm hs]
    exact hostStartTx_noSuchVariant hb (ofTag_eq_none hv)
  · rw [step_write hm hs]
    exact hostWrite_rxLen_tooLarge hb hn

end Sys2Proof.Machine
end

section
/-!
PROOFS of 45_deframer.md: the record a decode rule reads has the slice as its wire bytes, so a delivered message carries
the frame's own checksum byte, and DEFRAME is its pseudocode (R340); then the ports, whose use writes no register
(R350, R355–R357).
-/

namespace Sys2Proof.Machine

open Sys2Proof.Statements
open Sys2Proof.Config (Build)

/-! ### A record read from a slice has the slice as its bytes (42_payloads.md R193) -/

/-- The bytes emitted are those of the low 24 bits (40_field_packer.md R141, R142). -/
theorem bytes24_of_setWidth {w : Word} {b0 b1 b2 : Byte} (h : w.setWidth 24 = b0 ++ b1 ++ b2) :
    bytes24 w = [b0, b1, b2] := by
  have hlow (k : Nat) (hk : k + 8 ≤ 24) : w.extractLsb' k 8 = (b0 ++ b1 ++ b2).extractLsb' k 8 := by
    rw [← h, BitVec.extractLsb'_setWidth_of_le hk]
  have h0 : (b0 ++ b1 ++ b2).extractLsb' 16 8 = b0 := by
    rw [BitVec.extractLsb'_append_eq_of_le (by decide)]
    exact BitVec.extractLsb'_append_eq_left
  have h1 : (b0 ++ b1 ++ b2).extractLsb' 8 8 = b1 := by
    rw [BitVec.extractLsb'_append_eq_of_le (by decide)]
    exact BitVec.extractLsb'_append_eq_right
  have h2 : (b0 ++ b1 ++ b2).extractLsb' 0 8 = b2 := BitVec.extractLsb'_append_eq_right
  rw [bytes24, hlow 16 (by decide), hlow 8 (by decide), hlow 0 (by decide), h0, h1, h2]

theorem bytes24_s24At (B : List Byte) (k : Nat) :
    bytes24 (s24At B k) = [byteAt B k, byteAt B (k + 1), byteAt B (k + 2)] :=
  bytes24_of_setWidth (setWidth_unpackS24 ..)

theorem bytes24_u24At (B : List Byte) (k : Nat) :
    bytes24 (u24At B k) = [byteAt B k, byteAt B (k + 1), byteAt B (k + 2)] :=
  bytes24_of_setWidth (BitVec.setWidth_setWidth_of_le _ (by decide))

theorem packU16_u16At (B : List Byte) (k : Nat) : packU16 (u16At B k) = [byteAt B k, byteAt B (k + 1)] :=
  packU16_unpackU16 ..

theorem dspByte_readDsp (v : Byte) : dspByte (readDsp v) = v := by
  by_cases h : v.toNat < 128
  · apply BitVec.eq_of_toNat_eq
    rw [readDsp_of_lt h, toNat_dspByte_iterations, BitVec.toNat_setWidth, Nat.mod_eq_of_lt h]
  · rw [readDsp_of_ge (Nat.not_lt.1 h), dspByte]

/-- A decode rule reads every byte of its slice once, in order: where a record has fields of more than one byte, they
pack to the bytes they were read from. -/
theorem bytes_readPayload_eq_map (t : Variant) (B : List Byte) :
    (readPayload t B).bytes = (List.range t.payloadLen).map (byteAt B) := by
  cases t with
  | poll | systemControl | diagnosticMode => rfl
  | positionPoll | systemStatus | targetData | imageData | eepromData | eepromDataRequest | cameraCalibration =>
    simp only [readPayload, readPositionPoll, readSystemStatus, readTargetData, readImageData, readEepromData,
      readEepromDataRequest, readCameraCalibration, Payload.bytes, Payload.fields, Field.bytes, List.flatMap_cons,
      bytes24_s24At, bytes24_u24At, packU16_u16At, dspByte_readDsp]
    rfl

theorem bytes_readPayload {t : Variant} {B : List Byte} (h : B.length = t.payloadLen) :
    (readPayload t B).bytes = B := by
  have hslice := map_byteAt_range (B := B) (k := 0) (n := t.payloadLen) (by omega)
  simpa [bytes_readPayload_eq_map, ← h] using hslice

/-! ### A frame around its payload slice (30_encoding.md R90) -/

theorem length_payloadSlice (F : List Byte) : (payloadSlice F).length = F.length - 3 := by
  rw [payloadSlice, List.length_drop, List.length_take]
  omega

/-- The bytes the checksum is over are the two header bytes and the payload slice. -/
theorem take_eq_header_cons_payloadSlice {F : List Byte} (hl : 4 ≤ F.length) :
    F.take (F.length - 1) = byteAt F 0 :: byteAt F 1 :: payloadSlice F :=
  match F, hl with
  | _ :: _ :: _ :: _, _ => rfl

/-- The message of a frame that passed the checks before the payload's fields carries the frame's own checksum byte
(45_deframer.md R345). -/
theorem messageOf_frame {F : List Byte} {c : Command} (hl : 4 ≤ F.length)
    (hchk : checksum (F.take (F.length - 1)) = byteAt F (F.length - 1)) (hc : Command.fromByte (byteAt F 0) = some c)
    (hn : (payloadSlice F).length = (route c).payloadLen) :
    messageOf c (byteAt F 1) (readPayload (route c) (payloadSlice F)) =
      { command := c, cameraId := byteAt F 1, payload := readPayload (route c) (payloadSlice F),
        checksum := byteAt F (F.length - 1) } := by
  rw [messageOf, bytes_readPayload hn, fromByte_eq_some.1 hc, ← take_eq_header_cons_payloadSlice hl, hchk]

/-! ### The ends of DEFRAME's pseudocode (R340) -/

section
variable {F : List Byte}

theorem decode_rx_frameTooShort (hl : F.length < 4) : decode (.rx F) = .error .frameTooShort :=
  if_pos hl

theorem decode_rx_checksumMismatch (hl : 4 ≤ F.length)
    (hchk : checksum (F.take (F.length - 1)) ≠ byteAt F (F.length - 1)) :
    decode (.rx F) = .error .checksumMismatch := by
  show decodeFrame F = _
  rw [decodeFrame, if_neg (Nat.not_lt.2 hl), if_pos hchk]

theorem decode_rx_ok {c : Command} (hl : 4 ≤ F.length)
    (hchk : checksum (F.take (F.length - 1)) = byteAt F (F.length - 1)) (hc : Command.fromByte (byteAt F 0) = some c)
    (hn : (payloadSlice F).length = (route c).payloadLen) :
    decode (.rx F) = .ok (receivedInstr c (byteAt F 1) (payloadSlice F)) := by
  show decodeFrame F = _
  rw [decodeFrame, if_neg (Nat.not_lt.2 hl), if_neg (not_not.2 hchk), hc]
  exact if_neg (not_not.2 hn)

/-- An error of DEFRAME completes the operation as failed (60_exceptions.md R394, R395). -/
theorem completeRx_of_decode_error {e : Err} (hd : decode (.rx F) = .error e) (b : Build) (s : State) :
    completeRx (deframeResult b F) s = rxFailed s e := by
  rw [deframeResult, hd]
  rfl

/-- The payload's error is DEFRAME's. -/
theorem completeRx_of_unpackError {c : Command} {cam : Byte} {B : List Byte} {b : Build} {e : Err}
    (hd : decode (.rx F) = .ok (receivedInstr c cam B))
    (hu : unpackError b (readPayload (route c) (payloadSlice F)) = some e) (s : State) :
    completeRx (deframeResult b F) s = rxFailed s e := by
  simp only [deframeResult, hd, command_receivedInstr, hu]
  rfl

/-- A frame that passes every check is delivered with its own checksum byte. -/
theorem completeRx_of_frame {c : Command} {b : Build} (hl : 4 ≤ F.length)
    (hchk : checksum (F.take (F.length - 1)) = byteAt F (F.length - 1)) (hc : Command.fromByte (byteAt F 0) = some c)
    (hn : (payloadSlice F).length = (route c).payloadLen)
    (hu : unpackError b (readPayload (route c) (payloadSlice F)) = none) (s : State) :
    completeRx (deframeResult b F) s =
      delivered s c (byteAt F 1) (readPayload (route c) (payloadSlice F)) (byteAt F (F.length - 1)) := by
  simp only [deframeResult, decode_rx_ok hl hchk hc hn, command_receivedInstr, hu, messageOf_frame hl hchk hc hn]
  rw [completeRx, deliver, statCompleted_none, delivered]

end

theorem readBytes_eq_map_range' (m : Memory) (off n : Nat) :
    readBytes m off n = (List.range' off n).map (Memory.read m) := by
  induction n generalizing off with
  | zero => rfl
  | succ n ih => rw [readBytes, ih, List.range'_succ, List.map_cons]

/-- Settles O35: the step completes with DEFRAME's result for the fetched bytes, which each test of the pseudocode in
turn decides. -/
theorem rxStepIsTheDeframePseudocode : Obligations.RxStepIsTheDeframePseudocode := by
  unfold Obligations.RxStepIsTheDeframePseudocode
  intro s n F P hm hb hn hmax hF hP
  have hfetch : readBytes s.rx.buf 0 s.rx.len = F := by
    rw [hF, hn, readBytes_eq_map_range', List.range_eq_range']
  have hstep := step_rx_busy hm hb (hn ▸ hmax)
  rw [hfetch] at hstep
  obtain rfl : F.length = n := by rw [← hfetch, readBytes_length, hn]
  obtain rfl : P = payloadSlice F := hP
  refine ⟨?_, fun _ _ => unpackError_some⟩
  rw [hstep, ← length_payloadSlice]
  congr 1
  split
  next hshort => exact completeRx_of_decode_error (decode_rx_frameTooShort hshort) ..
  next hlong =>
    have hl := Nat.not_lt.1 hlong
    split
    next hbad => exact completeRx_of_decode_error (decode_rx_checksumMismatch hl hbad) ..
    next hgood =>
      have hchk := not_not.1 hgood
      cases hc : Command.fromByte (byteAt F 0) with
      | none => exact completeRx_of_decode_error (decode_rx_unknownCommand hl hchk hc) ..
      | some c =>
        dsimp only
        split
        next hne => exact completeRx_of_decode_error (decode_rx_lengthMismatch hl hchk hc hne) ..
        next heq =>
          have hlen := not_not.1 heq
          cases hu : unpackError s.build (readPayload (route c) (payloadSlice F)) with
          | some e => exact completeRx_of_unpackError (decode_rx_ok hl hchk hc hlen) hu _
          | none => exact completeRx_of_frame hl hchk hc hlen hu _

/-! ### The values on the ports (R350, R355–R357) -/

section
variable {s : State}

theorem portValue_narrow_ok {v : Variant} {p : Payload} (h : narrow s.rx.msg v = .ok p) :
    portValue s (.narrow v) = .ok (.payload p) := by
  simp only [portValue, h]

theorem portValue_narrow_error {v : Variant} {e : Err} (h : narrow s.rx.msg v = .error e) :
    portValue s (.narrow v) = .ok (.portError e) := by
  simp only [portValue, h]

theorem portValue_checksum {B : List Byte} (h : B.length ≤ s.build.chkMaxLen) :
    portValue s (.checksum B) = .ok (.byte (checksum B)) := if_pos h

theorem portValue_pack24_ok {sel : Signedness} {w : Word} {B : List Byte} (h : pack24 sel w = .ok B) :
    portValue s (.pack24 sel w) = .ok (.bytes B) := by
  simp only [portValue, h]

theorem portValue_pack24_error {sel : Signedness} {w : Word} {e : Err} (h : pack24 sel w = .error e) :
    portValue s (.pack24 sel w) = .ok (.portError e) := by
  simp only [portValue, h]

/-- Every port has a value, but for a CHECKSUM input it has no room for (R355). -/
theorem exists_portValue_eq_ok {p : PortUse} (hp : ∀ B, p = .checksum B → B.length ≤ s.build.chkMaxLen) :
    ∃ v, portValue s p = .ok v := by
  cases p with
  | narrow v =>
    cases h : narrow s.rx.msg v with
    | ok p => exact ⟨_, portValue_narrow_ok h⟩
    | error e => exact ⟨_, portValue_narrow_error h⟩
  | checksum B => exact ⟨_, portValue_checksum (hp B rfl)⟩
  | pack24 sel w =>
    cases h : pack24 sel w with
    | ok B => exact ⟨_, portValue_pack24_ok h⟩
    | error e => exact ⟨_, portValue_pack24_error h⟩
  | variantIndex | unpack24 => exact ⟨_, rfl⟩

end

/-- The use of a port that has a value records it, and writes no register. -/
theorem step_port_writes_no_register {s : State} {p : PortUse} {rest : List HostStep} (hm : mover s = .host)
    (hs : s.host = .port p :: rest) (hp : ∀ B, p = .checksum B → B.length ≤ s.build.chkMaxLen) :
    ∃ s', step s = .next s' ∧ s'.tx = s.tx ∧ s'.rx = s.rx ∧ s'.build = s.build := by
  obtain ⟨v, hv⟩ := exists_portValue_eq_ok (s := afterHostPick s rest) hp
  have hstep := step_host hm hs rfl
  rw [hostStep, hv] at hstep
  exact ⟨_, hstep, rfl, rfl, rfl⟩

/-- Settles O51: NARROW compares the message's variant with the requested one. -/
theorem narrowReturnsTheRecordOrWrongVariant : Obligations.NarrowReturnsTheRecordOrWrongVariant := by
  unfold Obligations.NarrowReturnsTheRecordOrWrongVariant
  refine fun s v => ⟨fun rest hm hs => ?_, fun hnone => ?_, fun m hmsg hv => ?_, fun m hmsg hv => ?_⟩
  · exact step_port_writes_no_register hm hs nofun
  · exact portValue_narrow_error (by rw [hnone, narrow])
  · exact portValue_narrow_ok (by rw [hmsg, narrow, if_pos hv])
  · exact portValue_narrow_error (by rw [hmsg, narrow, if_neg hv])

/-- Settles O52: the ports answer what the checksum generator and the field packer do. -/
theorem testPortsExposeChecksumAndPacker : Obligations.TestPortsExposeChecksumAndPacker := by
  unfold Obligations.TestPortsExposeChecksumAndPacker
  refine fun s => ⟨fun p rest hm hs hp => ?_, fun B hB => ?_, fun w hlo hhi => ?_, fun w hw => ?_, fun w hw => ?_,
    fun w hw => ?_, fun b0 b1 b2 => ?_⟩
  · exact step_port_writes_no_register hm hs hp
  · exact portValue_checksum hB
  · exact portValue_pack24_ok ((signedPackEmitsThreeBytesOrRaisesRangeError w).1 ⟨hlo, hhi⟩).1
  · exact portValue_pack24_error ((signedPackEmitsThreeBytesOrRaisesRangeError w).2 (by omega))
  · exact portValue_pack24_ok ((unsignedPackEmitsThreeBytesOrRaisesRangeError w).1 hw)
  · exact portValue_pack24_error ((unsignedPackEmitsThreeBytesOrRaisesRangeError w).2 hw)
  · exact ⟨rfl, rfl⟩

end Sys2Proof.Machine
end

section
/-!
PROOFS of 70_reset_and_hazards.md: what the registers read when both channels are as the reset event leaves them (R420).
-/

namespace Sys2Proof.Machine

open Sys2Proof.Statements

/-! ### The request payload at reset -/

@[simp] theorem TxRecords.getWord_reset (f : WordField) : TxRecords.reset.getWord f = 0#32 := by
  cases f <;> rfl

@[simp] theorem TxRecords.getHalf_reset (f : HalfField) : TxRecords.reset.getHalf f = 0#16 := by
  cases f <;> rfl

@[simp] theorem TxRecords.getByte_reset (f : ByteField) : TxRecords.reset.getByte f = 0#8 := by
  cases f <;> rfl

/-! ### The registers at reset -/

section
variable {s : State}

theorem readReg_txWord_of_reset (h : s.tx = TxChannel.reset) (f : WordField) :
    readReg s (.txWord f) = some (.word 0#32) := by
  simp [readReg, h, TxChannel.reset]

theorem readReg_txHalf_of_reset (h : s.tx = TxChannel.reset) (f : HalfField) :
    readReg s (.txHalf f) = some (.half 0#16) := by
  simp [readReg, h, TxChannel.reset]

theorem readReg_txByte_of_reset (h : s.tx = TxChannel.reset) (f : ByteField) :
    readReg s (.txByte f) = some (.byte 0#8) := by
  simp [readReg, h, TxChannel.reset]

theorem readReg_txBuf_of_reset (h : s.tx = TxChannel.reset) {a : Nat} (ha : a < 30) :
    readReg s (.txBuf a) = some (.byte 0x00#8) := by
  simp [readReg, h, TxChannel.reset, txBufCap, ha]

theorem readReg_rxBuf_of_reset (h : s.rx = RxChannel.reset) {a : Nat} (ha : a < s.build.rxMaxLen) :
    readReg s (.rxBuf a) = some (.byte 0x00#8) := by
  simp [readReg, h, RxChannel.reset, ha]

/-- The reset values are those of the two channels alone: neither the build nor the agents outside the block have a part
in them. -/
theorem registersReset_of_channels (htx : s.tx = TxChannel.reset) (hrx : s.rx = RxChannel.reset) :
    registersReset s := by
  refine ⟨?txVariant, ?txCommand, ?txCameraId, readReg_txWord_of_reset htx, readReg_txHalf_of_reset htx,
    readReg_txByte_of_reset htx, ?txDsp, ⟨Raw16.zero, ?txData, rfl⟩, rfl, ?txStat, ?txErrInfo,
    fun _ => readReg_txBuf_of_reset htx, ?txLen, fun _ => readReg_rxBuf_of_reset hrx, ?rxLen, rfl, ?rxStat, ?rxErrInfo,
    ?rxMsg⟩
  case txVariant | txCommand | txCameraId | txDsp | txData | txStat | txErrInfo | txLen => rw [readReg, htx]; rfl
  case rxLen | rxStat | rxErrInfo | rxMsg => rw [readReg, hrx]; rfl

end

/-- The turn of the reset event is always taken, whatever the channels are doing. -/
theorem step_reset {s : State} (hm : mover s = .reset) : step s = .next (resetEvent (afterPick s)) := by
  rw [step_eq, hm, takeTurn]

/-- Settles O53: the machine at reset and the state after the reset event have both channels at their reset values. -/
theorem resetPutsEveryRegisterInItsResetValue : Obligations.ResetPutsEveryRegisterInItsResetValue := by
  unfold Obligations.ResetPutsEveryRegisterInItsResetValue
  refine ⟨registersReset_of_channels rfl rfl, fun s hm => ⟨_, step_reset hm, ?_, rfl, rfl, rfl⟩⟩
  exact registersReset_of_channels (resetEvent_tx _) (resetEvent_rx _)

end Sys2Proof.Machine
end

section
/-!
PROOFS of 40_field_packer.md, section 1: the round trip of the 24-bit field, both ways (R141–R144).
-/

namespace Sys2Proof.Machine

/-! ### The word of three bytes packs to them -/

theorem s24InRange_unpackS24 (b0 b1 b2 : Byte) : s24InRange (unpackS24 b0 b1 b2) = true :=
  s24InRange_iff.2 (toInt_unpackS24_bounds b0 b1 b2)

theorem u24InRange_unpackU24 (b0 b1 b2 : Byte) : u24InRange (unpackU24 b0 b1 b2) = true := by
  have hval := toNat_unpackU24 b0 b1 b2
  exact u24InRange_iff.2 (by omega)

theorem packS24_unpackS24 (b0 b1 b2 : Byte) : packS24 (unpackS24 b0 b1 b2) = .ok [b0, b1, b2] := by
  rw [packS24, if_pos (s24InRange_unpackS24 b0 b1 b2), bytes24_of_setWidth (setWidth_unpackS24 b0 b1 b2)]

theorem packU24_unpackU24 (b0 b1 b2 : Byte) : packU24 (unpackU24 b0 b1 b2) = .ok [b0, b1, b2] := by
  have hlow : (unpackU24 b0 b1 b2).setWidth 24 = b0 ++ b1 ++ b2 := BitVec.setWidth_setWidth_of_le _ (by decide)
  rw [packU24, if_pos (u24InRange_unpackU24 b0 b1 b2), bytes24_of_setWidth hlow]

/-! ### A word in range is the word of its three bytes -/

/-- The three bytes emitted are the low 24 bits. -/
theorem append_bytes24 (w : Word) :
    w.extractLsb' 16 8 ++ w.extractLsb' 8 8 ++ w.extractLsb' 0 8 = w.setWidth 24 := by
  apply BitVec.eq_of_toNat_eq
  simp only [toNat_append_bytes, BitVec.extractLsb'_toNat, BitVec.toNat_setWidth, Nat.shiftRight_eq_div_pow]
  omega

theorem unpackS24_bytes24 {w : Word} (h : s24InRange w = true) :
    unpackS24 (w.extractLsb' 16 8) (w.extractLsb' 8 8) (w.extractLsb' 0 8) = w := by
  rw [unpackS24, append_bytes24, signExtend_setWidth_of_s24InRange h]

theorem unpackU24_bytes24 {w : Word} (h : u24InRange w = true) :
    unpackU24 (w.extractLsb' 16 8) (w.extractLsb' 8 8) (w.extractLsb' 0 8) = w := by
  have hle := u24InRange_iff.1 h
  apply BitVec.eq_of_toNat_eq
  rw [unpackU24, append_bytes24, BitVec.toNat_setWidth_of_le (by decide), BitVec.toNat_setWidth]
  omega

/-- A check with a result answers that result alone. -/
theorem ite_eq_ok {α : Type} {c : Prop} [Decidable c] {x y : α} {e : Err}
    (h : (if c then .ok x else .error e) = Except.ok y) : c ∧ x = y := by
  have hc := of_ite_eq_ok h
  rw [if_pos hc] at h
  exact ⟨hc, Except.ok.inj h⟩

/-- Settles O4: unpacked words are in range and have the three bytes as their low 24 bits, and a word that packs is in
range, so it is the extension of its own low 24 bits. -/
theorem packedIntsReadBackAsThemselves : Obligations.PackedIntsReadBackAsThemselves := by
  unfold Obligations.PackedIntsReadBackAsThemselves
  refine ⟨fun b0 b1 b2 => ⟨packS24_unpackS24 b0 b1 b2, packU24_unpackU24 b0 b1 b2⟩, fun w B h => ?_, fun w B h => ?_⟩
  · obtain ⟨hr, rfl⟩ := ite_eq_ok h
    exact ⟨_, _, _, rfl, unpackS24_bytes24 hr⟩
  · obtain ⟨hr, rfl⟩ := ite_eq_ok h
    exact ⟨_, _, _, rfl, unpackU24_bytes24 hr⟩

end Sys2Proof.Machine
end

section
/-!
PROOFS of 41_checksum.md: the checksum's value as a function of the byte sum alone, and with it what the spec derives:
the frame sum and the detection of changed bytes.
-/

namespace Sys2Proof.Machine

open Sys2Proof.Statements

/-! ### The byte sum -/

@[simp] theorem byteSum_nil : byteSum [] = 0 := rfl

@[simp] theorem byteSum_cons (b : Byte) (B : List Byte) : byteSum (b :: B) = b.toNat + byteSum B := rfl

@[simp] theorem byteSum_append (B C : List Byte) : byteSum (B ++ C) = byteSum B + byteSum C := by
  simp [byteSum]

theorem byteSum_of_perm {B C : List Byte} (h : B.Perm C) : byteSum B = byteSum C :=
  (h.map BitVec.toNat).sum_eq

/-- Replacing one byte takes its value out of the sum and puts the new one in. -/
theorem byteSum_set {B : List Byte} {k : Nat} (v : Byte) (h : k < B.length) :
    byteSum (B.set k v) + (byteAt B k).toNat = byteSum B + v.toNat := by
  induction B generalizing k with
  | nil => exact absurd h (Nat.not_lt_zero k)
  | cons b B ih =>
    cases k with
    | zero =>
      have h0 : byteAt (b :: B) 0 = b := rfl
      rw [h0, List.set_cons_zero, byteSum_cons, byteSum_cons]
      omega
    | succ k =>
      have hk : byteAt (b :: B) (k + 1) = byteAt B k := rfl
      have hrest := ih (Nat.lt_of_succ_lt_succ h)
      rw [hk, List.set_cons_succ, byteSum_cons, byteSum_cons]
      omega

/-! ### The closed form -/

theorem toNat_checksum (B : List Byte) : ((checksum B).toNat : Int) = (0x40 - (byteSum B : Int)) % 256 := by
  induction B using List.reverseRecOn with
  | nil => rfl
  | append_singleton B b ih =>
    have hb := b.isLt
    rw [checksum_append_singleton, BitVec.toNat_sub, byteSum_append, byteSum_cons, byteSum_nil]
    omega

/-- The checksum tells byte strings apart by their sums mod 256 alone. -/
theorem checksum_eq_iff {B C : List Byte} : checksum B = checksum C ↔ byteSum B % 256 = byteSum C % 256 := by
  have hB := toNat_checksum B
  have hC := toNat_checksum C
  rw [← BitVec.toNat_inj]
  omega

/-- One changed byte changes the sum mod 256. -/
theorem byteSum_set_mod_ne {B : List Byte} {k : Nat} {v : Byte} (h : k < B.length) (hv : v ≠ byteAt B k) :
    byteSum (B.set k v) % 256 ≠ byteSum B % 256 := by
  have hsum := byteSum_set v h
  have hne : v.toNat ≠ (byteAt B k).toNat := mt BitVec.eq_of_toNat_eq hv
  have := v.isLt
  have := (byteAt B k).isLt
  omega

/-! ### The sum of a frame -/

/-- A byte string is its bytes but the last, and the last. -/
theorem take_append_byteAt_last {F : List Byte} (h : F ≠ []) :
    F.take (F.length - 1) ++ [byteAt F (F.length - 1)] = F := by
  have hlast : byteAt F (F.length - 1) = F.getLast h := by
    rw [byteAt, List.getLast_eq_getElem, List.getD_eq_getElem]
  rw [hlast, List.take_append_getLast]

theorem checksum_take_eq_last_iff {F : List Byte} (h : F ≠ []) :
    checksum (F.take (F.length - 1)) = byteAt F (F.length - 1) ↔ byteSum F % 256 = 0x40 := by
  have hsum : byteSum F = byteSum (F.take (F.length - 1)) + (byteAt F (F.length - 1)).toNat := by
    conv_lhs => rw [← take_append_byteAt_last h]
    rw [byteSum_append, byteSum_cons, byteSum_nil, Nat.add_zero]
  have hval := toNat_checksum (F.take (F.length - 1))
  have := (byteAt F (F.length - 1)).isLt
  rw [← BitVec.toNat_inj, hsum]
  omega

/-- Settles O9: every appended byte lowers the value by itself mod 256, and the last byte of a frame adds to the sum what
the checksum of the bytes before it took away. -/
theorem checksumClosedFormAndFrameSum : Obligations.ChecksumClosedFormAndFrameSum := by
  unfold Obligations.ChecksumClosedFormAndFrameSum
  exact ⟨toNat_checksum, fun _ => checksum_take_eq_last_iff⟩

/-- Settles O10: one changed byte changes the sum by less than 256, reordered bytes keep it, and the checksum depends on
the sum alone. -/
theorem checksumDetectsOneChangedByteOnly : Obligations.ChecksumDetectsOneChangedByteOnly := by
  unfold Obligations.ChecksumDetectsOneChangedByteOnly
  refine ⟨fun B k v hk hv => ?_, fun B C hperm => ?_, fun B C => checksum_eq_iff.2⟩
  · exact mt checksum_eq_iff.1 (byteSum_set_mod_ne hk hv)
  · exact checksum_eq_iff.2 (by rw [byteSum_of_perm hperm])

end Sys2Proof.Machine
end

section
/-!
PROOFS of 42_payloads.md, section 12: an encodable record is what its decode rule reads from its own bytes, what a decode
rule reads is encodable, and legal is encodable with no check raising (R193, R220, R221).
-/

namespace Sys2Proof.Machine

open Sys2Proof.Config (Build)

/-! ### What is encodable, field by field -/

section
variable (w : Word) (h : Half) (v : Byte) (fid : FieldId) (n : BitVec 7) (r : Raw16)

@[simp] theorem Field.encodable_s24 : (Field.s24 w).encodable = s24InRange w := rfl
@[simp] theorem Field.encodable_u24 : (Field.u24 w).encodable = u24InRange w := rfl
@[simp] theorem Field.encodable_u16 : (Field.u16 h).encodable = true := rfl
@[simp] theorem Field.encodable_u8 : (Field.u8 v).encodable = true := rfl
@[simp] theorem Field.encodable_flags8 : (Field.flags8 v).encodable = true := rfl
@[simp] theorem Field.encodable_enum8 : (Field.enum8 fid v).encodable = true := rfl
@[simp] theorem Field.encodable_raw : (Field.raw r).encodable = true := rfl

end

/-- A dsp byte read as an error code has its sign bit set (40_field_packer.md R150). -/
@[simp] theorem Field.encodable_dsp_readDsp (v : Byte) : (Field.dsp (readDsp v)).encodable = true := by
  by_cases h : v.toNat < 128
  · rw [readDsp_of_lt h]; rfl
  · rw [readDsp_of_ge (Nat.not_lt.1 h)]
    exact msb_byte_eq_true_iff.2 (Nat.not_lt.1 h)

/-- Whatever bytes a decode rule reads, each field is in its type's range. -/
theorem encodable_readPayload (t : Variant) (B : List Byte) : (readPayload t B).encodable = true := by
  cases t <;>
    simp [readPayload, Payload.encodable, Payload.fields, readPositionPoll, readSystemStatus, readTargetData,
      readImageData, readCameraCalibration, s24At, u24At, s24InRange_unpackS24, u24InRange_unpackU24]

/-! ### An encodable record reads back from its bytes -/

theorem readDsp_dspByte {d : Dsp} (h : (Field.dsp d).encodable = true) : readDsp (dspByte d) = d := by
  cases d with
  | iterations n => exact readDsp_dspByte_iterations n
  | error c => exact readDsp_of_ge (msb_byte_eq_true_iff.1 h)

/-- Each offset of the decode rule is where the encode rule put the field, and the fields of more than one byte and the
dsp byte read back from their bytes. -/
theorem readPayload_bytes {p : Payload} (h : p.encodable = true) : readPayload p.variant p.bytes = p := by
  cases p with
  | poll | systemControl | diagnosticMode => rfl
  | positionPoll | systemStatus | targetData | imageData | eepromData | eepromDataRequest | cameraCalibration =>
    simp only [Payload.encodable, Payload.fields, List.all_cons, List.all_nil, Field.encodable_u8, Field.encodable_u16,
      Field.encodable_flags8, Field.encodable_enum8, Field.encodable_raw, Field.encodable_s24, Field.encodable_u24,
      Bool.true_and, Bool.and_true, Bool.and_eq_true] at h
    simp [Payload.variant, readPayload, readPositionPoll, readSystemStatus, readTargetData, readImageData,
      readEepromData, readEepromDataRequest, readCameraCalibration, s24At, u24At, u16At, byteAt, Payload.bytes,
      Payload.fields, Field.bytes, bytes24, packU16, Raw16.toBytes, unpackS24_bytes24, unpackU24_bytes24,
      unpackU16_packU16, readDsp_dspByte, h]

/-! ### Legal is encodable with no check raising (10_state.md R23, R221) -/

theorem Field.legal_iff {b : Build} {f : Field} :
    f.legal b = true ↔ f.encodable = true ∧ f.checkUnpacked b = .ok () := by
  cases f with
  | s24 w | u24 w => exact ⟨fun h => ⟨h, rfl⟩, fun h => h.1⟩
  | enum8 fid v => exact ⟨fun h => ⟨rfl, checkEnum_eq_ok.2 h⟩, fun h => checkEnum_eq_ok.1 h.2⟩
  | dsp d =>
    cases d with
    | iterations n => exact ⟨fun _ => ⟨rfl, rfl⟩, fun _ => rfl⟩
    | error c =>
      have hmem : checkEnum b .sysStatusDsp c = .ok () ↔ b.isDspError c = true := checkEnum_eq_ok
      exact ⟨fun h => ⟨isDspError_msb h, hmem.2 h⟩, fun h => hmem.1 h.2⟩
  | u16 | u8 | flags8 | raw => exact ⟨fun _ => ⟨rfl, rfl⟩, fun _ => rfl⟩

theorem unpackError_eq_none {b : Build} {p : Payload} :
    unpackError b p = none ↔ ∀ f ∈ p.fields, f.2.checkUnpacked b = .ok () := by
  rw [unpackError, firstRaised_eq_none, List.forall_mem_map]

theorem Payload.legal_iff {b : Build} {p : Payload} :
    p.legal b = true ↔ p.encodable = true ∧ unpackError b p = none := by
  simp only [Payload.legal, Payload.encodable, List.all_eq_true, unpackError_eq_none, Field.legal_iff, ← forall₂_and]

theorem legal_readPayload_iff {b : Build} {t : Variant} {B : List Byte} :
    (readPayload t B).legal b = true ↔ unpackError b (readPayload t B) = none := by
  rw [Payload.legal_iff, and_iff_right (encodable_readPayload t B)]

/-- Settles O21: a legal payload is encodable, so it reads back from its bytes; what is read from a slice is encodable and
has the slice as its bytes. -/
theorem payloadsRoundTripAndDecodeLegal : Obligations.PayloadsRoundTripAndDecodeLegal := by
  unfold Obligations.PayloadsRoundTripAndDecodeLegal
  refine ⟨fun b p hp => ?_, fun b t B hB hu => ?_⟩
  · obtain ⟨henc, hu⟩ := Payload.legal_iff.1 hp
    exact ⟨p.bytes, encodePayload_of_legal hp, p.bytes_length, readPayload_bytes henc, hu⟩
  · have hp := legal_readPayload_iff.2 hu
    exact ⟨hp, encodePayload_eq_ok.2 ⟨hp, bytes_readPayload hB⟩⟩

end Sys2Proof.Machine
end

section
/-!
PROOFS of 30_encoding.md, sections 1 to 4: what decodes is exactly a frame around a payload slice of the routed length, so
decoding and encoding are inverse both ways; and a good frame with one byte changed is a checksum mismatch
(45_deframer.md, section 1).
-/

namespace Sys2Proof.Machine

open Sys2Proof.Statements

/-! ### A frame and its parts (R90) -/

section
variable (c cam : Byte) (P : List Byte)

@[simp] theorem byteAt_zero_frameOf : byteAt (frameOf c cam P) 0 = c := rfl

@[simp] theorem byteAt_one_frameOf : byteAt (frameOf c cam P) 1 = cam := rfl

theorem take_frameOf : (frameOf c cam P).take ((frameOf c cam P).length - 1) = c :: cam :: P := by
  have hl : (frameOf c cam P).length - 1 = (c :: cam :: P).length := by simp
  rw [hl, frameOf, List.take_left]

theorem byteAt_last_frameOf :
    byteAt (frameOf c cam P) ((frameOf c cam P).length - 1) = checksum (c :: cam :: P) := by
  have hl : (frameOf c cam P).length - 1 = (c :: cam :: P).length := by simp
  rw [hl, byteAt, frameOf, List.getD_append_right _ _ _ _ le_rfl, Nat.sub_self]
  rfl

@[simp] theorem payloadSlice_frameOf : payloadSlice (frameOf c cam P) = P := by
  rw [payloadSlice, take_frameOf]
  rfl

end

/-- A byte string that ends in its checksum is the frame around its payload slice. -/
theorem eq_frameOf {F : List Byte} (hl : 4 ≤ F.length)
    (hchk : checksum (F.take (F.length - 1)) = byteAt F (F.length - 1)) :
    F = frameOf (byteAt F 0) (byteAt F 1) (payloadSlice F) := by
  have hne : F ≠ [] := List.ne_nil_of_length_pos (by omega)
  rw [frameOf, ← take_eq_header_cons_payloadSlice hl, hchk, take_append_byteAt_last hne]

/-! ### What decodes (45_deframer.md R340) -/

/-- Only a byte string that passes all four checks decodes. -/
theorem checks_of_decode_rx_ok {F : List Byte} {i : Instr} (h : decode (.rx F) = .ok i) :
    4 ≤ F.length ∧ checksum (F.take (F.length - 1)) = byteAt F (F.length - 1) ∧
    ∃ c, Command.fromByte (byteAt F 0) = some c ∧ (payloadSlice F).length = (route c).payloadLen := by
  have hl : 4 ≤ F.length := by
    by_contra hshort
    simp [decode_rx_frameTooShort (Nat.not_le.1 hshort)] at h
  have hchk : checksum (F.take (F.length - 1)) = byteAt F (F.length - 1) := by
    by_contra hbad
    simp [decode_rx_checksumMismatch hl hbad] at h
  refine ⟨hl, hchk, ?_⟩
  cases hc : Command.fromByte (byteAt F 0) with
  | none => simp [decode_rx_unknownCommand hl hchk hc] at h
  | some c =>
    refine ⟨c, rfl, ?_⟩
    by_contra hne
    simp [decode_rx_lengthMismatch hl hchk hc hne] at h

/-- The frame of a command around a slice of its routed length decodes to the command's received form. -/
theorem decode_frameOf {c : Command} {cam : Byte} {P : List Byte} (hP : P.length = (route c).payloadLen) :
    decode (.rx (frameOf c.toByte cam P)) = .ok (receivedInstr c cam P) := by
  have hpos := payloadLen_bounds (route c)
  have hl : 4 ≤ (frameOf c.toByte cam P).length := by rw [frameOf_length]; omega
  have hd := decode_rx_ok (F := frameOf c.toByte cam P) hl (by rw [take_frameOf, byteAt_last_frameOf])
    (fromByte_toByte c) (by rwa [payloadSlice_frameOf])
  rwa [byteAt_one_frameOf, payloadSlice_frameOf] at hd

/-- What decodes is exactly the frame of a command around a slice of its routed length. -/
theorem decode_rx_eq_ok_iff {F : List Byte} {i : Instr} :
    decode (.rx F) = .ok i ↔ ∃ (c : Command) (cam : Byte) (P : List Byte), P.length = (route c).payloadLen ∧
      F = frameOf c.toByte cam P ∧ i = receivedInstr c cam P := by
  constructor
  · intro h
    obtain ⟨hl, hchk, c, hc, hlen⟩ := checks_of_decode_rx_ok h
    refine ⟨c, byteAt F 1, payloadSlice F, hlen, ?_, ?_⟩
    · rw [fromByte_eq_some.1 hc]
      exact eq_frameOf hl hchk
    · exact Except.ok.inj (h.symm.trans (decode_rx_ok hl hchk hc hlen))
  · rintro ⟨c, cam, P, hP, rfl, rfl⟩
    exact decode_frameOf hP

theorem decode_tx_eq_ok_iff {b : Byte} {i : Instr} :
    decode (.tx b) = .ok i ↔ ∃ c : Command, b = c.toByte ∧ i = requestInstr c := by
  constructor
  · intro h
    cases hc : Command.fromByte b with
    | none => simp [decode, hc] at h
    | some c =>
      simp only [decode, hc, Except.ok.injEq] at h
      exact ⟨c, (fromByte_eq_some.1 hc).symm, h.symm⟩
  · rintro ⟨c, rfl, rfl⟩
    simp [decode]

/-! ### An instruction is its command and its operands -/

@[simp] theorem receivedOperands_receivedInstr (c : Command) (cam : Byte) (B : List Byte) :
    receivedOperands (receivedInstr c cam B) = some (cam, readPayload (route c) B) := by
  cases c <;> rfl

@[simp] theorem receivedOperands_requestInstr (c : Command) : receivedOperands (requestInstr c) = none := by
  cases c <;> rfl

/-- The payload of a received form is of the variant its command routes to (43_commands.md R260). -/
theorem variant_of_receivedOperands {i : Instr} {cam : Byte} {p : Payload} (h : receivedOperands i = some (cam, p)) :
    p.variant = route (command i) := by
  cases i with
  | mode00 f | mode01 f | mode02 f | mode03 f | positionPoll f | systemStatus f | systemParams f | firstTarget f
  | nextTarget f | firstImage f | nextImage f | eepromData f | requestEeprom f | cameraCalibration f
  | diagnosticMode f =>
    cases f with
    | deframe cam' q => cases h; rfl
    | frame => cases h

/-- An instruction without operands is the frame form of its command. -/
theorem eq_requestInstr {i : Instr} (h : receivedOperands i = none) : i = requestInstr (command i) := by
  cases i with
  | mode00 f | mode01 f | mode02 f | mode03 f | positionPoll f | systemStatus f | systemParams f | firstTarget f
  | nextTarget f | firstImage f | nextImage f | eepromData f | requestEeprom f | cameraCalibration f
  | diagnosticMode f =>
    cases f with
    | deframe cam q => cases h
    | frame => rfl

/-- An instruction with operands is the received form of its command, read from any bytes that read as its payload. -/
theorem eq_receivedInstr {i : Instr} {cam : Byte} {p : Payload} {B : List Byte}
    (h : receivedOperands i = some (cam, p)) (hB : readPayload (route (command i)) B = p) :
    i = receivedInstr (command i) cam B := by
  subst hB
  cases i with
  | mode00 f | mode01 f | mode02 f | mode03 f | positionPoll f | systemStatus f | systemParams f | firstTarget f
  | nextTarget f | firstImage f | nextImage f | eepromData f | requestEeprom f | cameraCalibration f
  | diagnosticMode f =>
    cases f with
    | deframe cam' q => cases h; rfl
    | frame => cases h

theorem encode_of_received {i : Instr} {cam : Byte} {p : Payload} (h : receivedOperands i = some (cam, p)) :
    encode i = .rx (frameOf (command i).toByte cam p.bytes) := by
  rw [encode, h]

theorem encode_of_request {i : Instr} (h : receivedOperands i = none) : encode i = .tx (command i).toByte := by
  rw [encode, h]

theorem wellFormed_of_received {i : Instr} {cam : Byte} {p : Payload} (h : receivedOperands i = some (cam, p)) :
    i.wellFormed = p.encodable := by
  rw [Instr.wellFormed, h]

theorem wellFormed_of_request {i : Instr} (h : receivedOperands i = none) : i.wellFormed = true := by
  rw [Instr.wellFormed, h]

/-! ### Decoding and encoding are inverse -/

/-- Settles O18: the encoding of a received form is a frame around its payload's bytes, which read back as the payload;
that of a request is its command byte. -/
theorem decodeOfEncodeIsTheInstruction : Obligations.DecodeOfEncodeIsTheInstruction := by
  unfold Obligations.DecodeOfEncodeIsTheInstruction
  intro i hi
  cases hop : receivedOperands i with
  | none =>
    rw [encode_of_request hop]
    exact decode_tx_eq_ok_iff.2 ⟨command i, rfl, eq_requestInstr hop⟩
  | some op =>
    obtain ⟨cam, p⟩ := op
    rw [wellFormed_of_received hop] at hi
    have hv := variant_of_receivedOperands hop
    have hread : readPayload (route (command i)) p.bytes = p := by rw [← hv, readPayload_bytes hi]
    rw [encode_of_received hop, decode_frameOf (by rw [p.bytes_length, hv]), ← eq_receivedInstr hop hread]

/-- Settles O19: what decodes is a frame around a slice of the routed length, and the payload read from the slice is
encodable and has the slice as its bytes; or it is a command byte. -/
theorem encodeOfDecodeIsWhatWasFetched : Obligations.EncodeOfDecodeIsWhatWasFetched := by
  unfold Obligations.EncodeOfDecodeIsWhatWasFetched
  intro f i hd
  cases f with
  | rx F =>
    obtain ⟨c, cam, P, hP, rfl, rfl⟩ := decode_rx_eq_ok_iff.1 hd
    have hop := receivedOperands_receivedInstr c cam P
    rw [wellFormed_of_received hop, encode_of_received hop, command_receivedInstr, bytes_readPayload hP]
    exact ⟨encodable_readPayload (route c) P, rfl⟩
  | tx b =>
    obtain ⟨c, rfl, rfl⟩ := decode_tx_eq_ok_iff.1 hd
    have hop := receivedOperands_requestInstr c
    rw [encode_of_request hop, command_requestInstr]
    exact ⟨wellFormed_of_request hop, rfl⟩

/-- Settles O20: the four frames and the request byte are what the encodings of section 3 write. -/
theorem writtenWordsDecodeToTheirCommands : Obligations.WrittenWordsDecodeToTheirCommands := by
  unfold Obligations.WrittenWordsDecodeToTheirCommands
  exact ⟨rfl, rfl, rfl, rfl, rfl, rfl⟩

/-- Settles O41: the bytes of a good frame sum to 0x40 mod 256, and with one changed they do not. -/
theorem oneCorruptedByteIsAChecksumMismatch : Obligations.OneCorruptedByteIsAChecksumMismatch := by
  unfold Obligations.OneCorruptedByteIsAChecksumMismatch
  intro F i k v hd hk hv
  obtain ⟨hl, hchk, -⟩ := checks_of_decode_rx_ok hd
  have hgood : byteSum F % 256 = 0x40 :=
    (checksum_take_eq_last_iff (List.ne_nil_of_length_pos (by omega))).1 hchk
  have hl' : 4 ≤ (F.set k v).length := by rwa [List.length_set]
  refine decode_rx_checksumMismatch hl' fun hchk' => byteSum_set_mod_ne hk hv ?_
  rw [hgood, (checksum_take_eq_last_iff (List.ne_nil_of_length_pos (by omega))).1 hchk']

end Sys2Proof.Machine
end

section
/-!
PROOFS of 43_commands.md: the compatibility table as routing and the poll request, the mask of InvalidCommand
(60_exceptions.md R383), and the received form of every command: delivered, or the first member check's error
(R270–R284).
-/

namespace Sys2Proof.Machine

open Sys2Proof.Statements
open Sys2Proof.Config (Build)

/-! ### Routing and compatibility (R260, R302) -/

theorem mem_allowed_iff {v : Variant} {c : Command} :
    c ∈ allowed v ↔ route c = v ∨ (v = .poll ∧ c = .systemStatus) := by
  cases v <;> cases c <;> decide

theorem exists_route_eq (v : Variant) : ∃ c, route c = v := by
  cases v with
  | poll => exact ⟨.mode00, rfl⟩
  | positionPoll => exact ⟨.positionPoll, rfl⟩
  | systemStatus => exact ⟨.systemStatus, rfl⟩
  | systemControl => exact ⟨.systemParams, rfl⟩
  | targetData => exact ⟨.firstTarget, rfl⟩
  | imageData => exact ⟨.firstImage, rfl⟩
  | eepromData => exact ⟨.eepromData, rfl⟩
  | eepromDataRequest => exact ⟨.requestEeprom, rfl⟩
  | cameraCalibration => exact ⟨.cameraCalibration, rfl⟩
  | diagnosticMode => exact ⟨.diagnosticMode, rfl⟩

theorem getLsbD_allowedMask_row {v : Variant} {c : Command} :
    (allowedMask v).getLsbD c.row = true ↔ c ∈ allowed v := by
  cases v <;> cases c <;> decide

/-- Settles O13: ten variants and fifteen commands, compared pair by pair. -/
theorem compatibilityIsRoutingPlusThePollRequest : Obligations.CompatibilityIsRoutingPlusThePollRequest := by
  unfold Obligations.CompatibilityIsRoutingPlusThePollRequest
  exact ⟨fun _ _ => mem_allowed_iff, exists_route_eq, fun _ _ => getLsbD_allowedMask_row⟩

/-! ### The two ends of a reception (45_deframer.md R340, steps 4 and 5) -/

theorem exec_of_received {i : Instr} {cam : Byte} {p : Payload} (h : receivedOperands i = some (cam, p)) (s : State) :
    exec i s = receive (command i) cam p s := by
  rw [exec_eq, h]

section
variable {i : Instr} {cam : Byte} {p : Payload} {s : State} (hop : receivedOperands i = some (cam, p))
include hop

theorem exec_delivered (hu : unpackError s.build p = none) :
    exec i s = .next (delivered s (command i) cam p (checksum ((command i).toByte :: cam :: p.bytes))) := by
  rw [exec_of_received hop, receive, hu]
  dsimp only
  rw [deliver, statCompleted_none, messageOf, delivered]

theorem exec_rxFailed {e : Err} (hu : unpackError s.build p = some e) : exec i s = .next (rxFailed s e) := by
  rw [exec_of_received hop, receive, hu]
  rfl

end

/-! ### What the member checks raise, variant by variant (42_payloads.md R201, R205, R219) -/

section
variable {b : Build}

theorem unpackError_poll_member {p : Poll} (h : p.command ∈ commandCodes) : unpackError b (.poll p) = none :=
  (Payload.legal_iff.1 (legal_poll_iff.2 h)).2

theorem unpackError_poll_nonmember {p : Poll} (h : p.command ∉ commandCodes) :
    unpackError b (.poll p) = some (.invalidEnumValue .pollCommand p.command) := by
  have hbad : isMember b .pollCommand p.command = false := eq_false_of_ne_true (mt isSome_fromByte.1 h)
  exact unpackError_eq_some.2 ⟨[], _, [], rfl, nofun, checkEnum_of_not_isMember hbad⟩

theorem unpackError_diagnosticMode_member {p : DiagnosticMode} (h : p.mode ∈ b.diagModeCodes) :
    unpackError b (.diagnosticMode p) = none := by
  have hgood : isMember b .diagMode p.mode = true := isDiagMode_iff.2 h
  exact unpackError_eq_none.2 (List.forall_mem_singleton.2 (checkEnum_of_isMember hgood))

theorem unpackError_diagnosticMode_nonmember {p : DiagnosticMode} (h : p.mode ∉ b.diagModeCodes) :
    unpackError b (.diagnosticMode p) = some (.invalidEnumValue .diagMode p.mode) := by
  have hbad : isMember b .diagMode p.mode = false := eq_false_of_ne_true (mt isDiagMode_iff.1 h)
  exact unpackError_eq_some.2 ⟨[], _, [], rfl, nofun, checkEnum_of_not_isMember hbad⟩

/-- A SystemStatus record has two checks, the status code's first. -/
theorem unpackError_systemStatus (p : SystemStatus) :
    unpackError b (.systemStatus p) =
      firstRaised [checkEnum b .sysStatusStatus p.systemStatus, checkDsp b p.dspStatus] := by
  simp only [unpackError, Payload.fields, List.map_cons, List.map_nil, Field.checkUnpacked]
  cases checkEnum b .sysStatusStatus p.systemStatus with
  | error e => rfl
  | ok u => cases checkDsp b p.dspStatus <;> rfl

section
variable {p : SystemStatus}

theorem checkEnum_systemStatus_member (h : p.systemStatus ∈ b.sysStatusCodes) :
    checkEnum b .sysStatusStatus p.systemStatus = .ok () :=
  checkEnum_of_isMember (fid := .sysStatusStatus) (isSysStatus_iff.2 h)

theorem unpackError_systemStatus_member (h : p.systemStatus ∈ b.sysStatusCodes)
    (hd : ∀ c, p.dspStatus = .error c → b.isDspError c = true) : unpackError b (.systemStatus p) = none := by
  have hdsp : checkDsp b p.dspStatus = .ok () := by
    cases hp : p.dspStatus with
    | iterations n => rfl
    | error c => exact checkEnum_of_isMember (fid := .sysStatusDsp) (hd c hp)
  rw [unpackError_systemStatus, checkEnum_systemStatus_member h, hdsp]
  rfl

theorem unpackError_systemStatus_nonmember (h : p.systemStatus ∉ b.sysStatusCodes) :
    unpackError b (.systemStatus p) = some (.invalidEnumValue .sysStatusStatus p.systemStatus) := by
  have hbad : isMember b .sysStatusStatus p.systemStatus = false := eq_false_of_ne_true (mt isSysStatus_iff.1 h)
  rw [unpackError_systemStatus, checkEnum_of_not_isMember hbad]
  rfl

theorem unpackError_systemStatus_dsp {c : Byte} (h : p.systemStatus ∈ b.sysStatusCodes)
    (hd : p.dspStatus = .error c) (hc : b.isDspError c = false) :
    unpackError b (.systemStatus p) = some (.invalidEnumValue .sysStatusDsp c) := by
  rw [unpackError_systemStatus, checkEnum_systemStatus_member h, hd, checkDsp,
    checkEnum_of_not_isMember (fid := .sysStatusDsp) hc]
  rfl

end

end

/-! ### The received commands (R270–R284) -/

/-- Settles O24: the one check of a Poll record decides, for each of the four modes. -/
theorem modeCommandsReceived : Obligations.ModeCommandsReceived := by
  unfold Obligations.ModeCommandsReceived
  refine fun s cam p => ⟨fun h => ?_, fun h => ?_⟩
  · have hu : unpackError s.build (.poll p) = none := unpackError_poll_member h
    exact ⟨exec_delivered rfl hu, exec_delivered rfl hu, exec_delivered rfl hu,
      exec_delivered rfl hu⟩
  · have hu : unpackError s.build (.poll p) = some (.invalidEnumValue .pollCommand p.command) :=
      unpackError_poll_nonmember h
    exact ⟨exec_rxFailed rfl hu, exec_rxFailed rfl hu, exec_rxFailed rfl hu,
      exec_rxFailed rfl hu⟩

/-- Settles O25: none of these records has a field with a check. -/
theorem positionParamsEepromCalibrationReceived : Obligations.PositionParamsEepromCalibrationReceived := by
  unfold Obligations.PositionParamsEepromCalibrationReceived
  exact fun s cam => ⟨fun _ => exec_delivered rfl rfl, fun _ => exec_delivered rfl rfl,
    fun _ => exec_delivered rfl rfl, fun _ => exec_delivered rfl rfl,
    fun _ => exec_delivered rfl rfl⟩

/-- Settles O26: neither record has a field with a check. -/
theorem targetAndImageCommandsReceived : Obligations.TargetAndImageCommandsReceived := by
  unfold Obligations.TargetAndImageCommandsReceived
  exact fun s cam =>
    ⟨fun _ => ⟨exec_delivered rfl rfl, exec_delivered rfl rfl⟩,
      fun _ => ⟨exec_delivered rfl rfl, exec_delivered rfl rfl⟩⟩

/-- Settles O27: the status code's check comes first, and the dsp byte's decides when it passes. -/
theorem systemStatusReceived : Obligations.SystemStatusReceived := by
  unfold Obligations.SystemStatusReceived
  refine fun s cam p => ⟨fun h hd => ?_, fun h => ?_, fun c h hd hc => ?_⟩
  · exact exec_delivered rfl (unpackError_systemStatus_member h hd)
  · exact exec_rxFailed rfl (unpackError_systemStatus_nonmember h)
  · exact exec_rxFailed rfl (unpackError_systemStatus_dsp h hd hc)

/-- Settles O28: the one check of the record decides. -/
theorem diagnosticModeReceived : Obligations.DiagnosticModeReceived := by
  unfold Obligations.DiagnosticModeReceived
  refine fun s cam p => ⟨fun h => ?_, fun h => ?_⟩
  · exact exec_delivered rfl (unpackError_diagnosticMode_member h)
  · exact exec_rxFailed rfl (unpackError_diagnosticMode_nonmember h)

/-! ### What a reception leaves unchanged (10_state.md, section 4) -/

/-- A reception answers the state with other RX registers, of which the request registers are as before. -/
theorem receive_frame {c : Command} {cam : Byte} {p : Payload} {s s' : State} (h : receive c cam p s = .next s') :
    s' = { s with rx := s'.rx } ∧ s'.rx.buf = s.rx.buf ∧ s'.rx.len = s.rx.len := by
  obtain ⟨-, hrec⟩ | ⟨e, -, hrec⟩ := receive_cases c cam p s
  · obtain rfl := Host.Outcome.next.inj (hrec.symm.trans h)
    exact ⟨rfl, rfl, rfl⟩
  · obtain rfl := Host.Outcome.next.inj (hrec.symm.trans h)
    exact ⟨rfl, rfl, rfl⟩

/-- Settles O32: executing a received form is a reception. -/
theorem receivedFramesChangeOnlyTheRxResults : Obligations.ReceivedFramesChangeOnlyTheRxResults := by
  unfold Obligations.ReceivedFramesChangeOnlyTheRxResults
  intro i s s' hsome h
  obtain ⟨⟨cam, p⟩, hop⟩ := Option.isSome_iff_exists.1 hsome
  rw [exec_of_received hop] at h
  obtain ⟨hs', hbuf, hlen⟩ := receive_frame h
  rw [hbuf, hlen, hs']
  exact ⟨rfl, rfl, rfl, rfl, rfl, rfl, rfl, fun _ => rfl, fun _ => rfl⟩

end Sys2Proof.Machine
end

section
/-!
PROOFS of 44_framer.md and 45_deframer.md: FRAME on a legal request (R300, R305), what a framing request reads and writes,
and the two round trips through the block: framed then deframed, and deframed then framed.
-/

namespace Sys2Proof.Machine

open Sys2Proof.Statements

/-! ### Executing a request (R300) -/

@[simp] theorem select_variant (r : TxRecords) (t : Variant) : (r.select t).variant = t := by
  cases t <;> rfl

theorem exec_of_request {i : Instr} (h : receivedOperands i = none) (s : State) :
    exec i s = transmit (command i).toByte s := by
  rw [exec_eq, h]

/-- Settles O29: the request is legal and its pair allowed, so FRAME stores the frame of the selected record. -/
theorem legalRequestsAreFramed : Obligations.LegalRequestsAreFramed := by
  unfold Obligations.LegalRequestsAreFramed
  intro s t ht hp i hi hpair
  refine ⟨?_, by rw [frameOf_length, Payload.bytes_length, select_variant]⟩
  rw [exec_of_mem_frameForms hi]
  exact transmit_of_legal ht hp (isAllowed_iff.2 hpair)

/-- Settles O46: a tag from 10 on names no variant, and FRAME asks for the variant first. -/
theorem executingAnUnnamedVariantIsRefused : Obligations.ExecutingAnUnnamedVariantIsRefused := by
  unfold Obligations.ExecutingAnUnnamedVariantIsRefused
  intro s hv i hi
  rw [exec_of_mem_frameForms hi, transmit, ofTag_eq_none hv]

/-! ### What a framing request writes (10_state.md, section 3) -/

/-- The next state of FRAME on a request that names a variant: its result's error reported, or its frame stored. -/
theorem transmit_eq_next {c : Byte} {s s' : State} {t : Variant} (ht : Variant.ofTag s.tx.variant = some t)
    (h : transmit c s = .next s') :
    (∃ e, frameResult s c t = .error e ∧ s' = txFailed s e) ∨
    (∃ F, frameResult s c t = .ok F ∧ s' = framed s F) := by
  obtain ⟨hnone, -⟩ | ⟨t', ht', hres⟩ := transmit_cases c s
  · simp [ht] at hnone
  · obtain rfl : t = t' := Option.some.inj (ht.symm.trans ht')
    obtain ⟨e, hF, hs⟩ | ⟨F, hF, -, hs⟩ | ⟨F, -, -, hs⟩ := hres
    · exact .inl ⟨e, hF, (Host.Outcome.next.inj (hs.symm.trans h)).symm⟩
    · rw [completeTx_eq_framed] at hs
      exact .inr ⟨F, hF, (Host.Outcome.next.inj (hs.symm.trans h)).symm⟩
    · simp [hs] at h

@[simp] theorem framed_buf (s : State) (F : List Byte) : (framed s F).tx.buf = writeBytes s.tx.buf 0 F := rfl

@[simp] theorem framed_len (s : State) (F : List Byte) : (framed s F).tx.len = F.length := rfl

/-- A frame stored at offset 0 is read there, and every offset past it reads as before. -/
theorem read_framed {s : State} (hwf : Memory.wf s.tx.buf) (F : List Byte) (a : Nat) :
    Memory.read (framed s F).tx.buf a = if a < F.length then byteAt F a else Memory.read s.tx.buf a := by
  simp [read_writeBytes hwf, byteAt]

theorem readBytes_framed {s : State} (hwf : Memory.wf s.tx.buf) (F : List Byte) :
    readBytes (framed s F).tx.buf 0 (framed s F).tx.len = F :=
  readBytes_writeBytes hwf 0 F

/-- Settles O33: both ends of FRAME write TX result registers alone, and only the frame touches `TX_BUF`. -/
theorem framingChangesOnlyTheTxResults : Obligations.FramingChangesOnlyTheTxResults := by
  unfold Obligations.FramingChangesOnlyTheTxResults
  intro i s s' t hop ht h
  rw [exec_of_request hop] at h
  obtain ⟨e, hF, rfl⟩ | ⟨F, hF, rfl⟩ := transmit_eq_next ht h
  · refine ⟨rfl, rfl, rfl, rfl, rfl, rfl, rfl, rfl, rfl, fun _ => rfl, fun F _ hF' => ?_, fun _ _ _ => rfl⟩
    simp [hF] at hF'
  · refine ⟨rfl, rfl, rfl, rfl, rfl, rfl, rfl, rfl, rfl, fun _ => rfl, fun F' hwf hF' => ?_, fun e hF' => ?_⟩
    · obtain rfl : F = F' := Except.ok.inj (hF.symm.trans hF')
      exact ⟨fun a ha => by rw [read_framed hwf, if_neg (Nat.not_lt.2 ha)],
        fun a ha => by rw [read_framed hwf, if_pos ha]⟩
    · simp [hF] at hF'

/-! ### What a framing request reads (10_state.md, section 6) -/

theorem frameResult_congr {s u : State} {t : Variant} (hbuild : u.build = s.build)
    (hcam : u.tx.cameraId = s.tx.cameraId) (hrec : u.tx.records.select t = s.tx.records.select t) (c : Byte) :
    frameResult u c t = frameResult s c t := by
  rw [frameResult, frameResult, hbuild, hcam, hrec]

/-- Settles O38: both states have one result of FRAME, which fills the result registers. -/
theorem frameIgnoresUnselectedRecords : Obligations.FrameIgnoresUnselectedRecords := by
  unfold Obligations.FrameIgnoresUnselectedRecords
  intro s u s' u' t i hop ht hvar hbuild hcam hrec hswf huwf hs hu
  rw [exec_of_request hop] at hs hu
  have hres := frameResult_congr hbuild hcam hrec (command i).toByte
  obtain ⟨e, hF, rfl⟩ | ⟨F, hF, rfl⟩ := transmit_eq_next ht hs
  · obtain ⟨e', hF', rfl⟩ | ⟨F', hF', -⟩ := transmit_eq_next (hvar ▸ ht) hu
    · obtain rfl : e = e' := Except.error.inj (hF.symm.trans (hres.symm.trans hF'))
      exact ⟨rfl, rfl, rfl, rfl⟩
    · simp [hres, hF] at hF'
  · obtain ⟨e', hF', -⟩ | ⟨F', hF', rfl⟩ := transmit_eq_next (hvar ▸ ht) hu
    · simp [hres, hF] at hF'
    · obtain rfl : F = F' := Except.ok.inj (hF.symm.trans (hres.symm.trans hF'))
      exact ⟨rfl, rfl, rfl, by rw [readBytes_framed hswf, readBytes_framed huwf]⟩

/-! ### The round trips -/

/-- A command is always framed with the variant it routes to (R302). -/
theorem isAllowed_route (c : Command) : isAllowed (route c) c.toByte = true :=
  List.any_eq_true.2 ⟨c, mem_allowed_iff.2 (.inl rfl), beq_self_eq_true _⟩

/-- A request with the legal record of its routed variant is framed. -/
theorem exec_requestInstr_of_legal {s : State} {c : Command} {p : Payload}
    (ht : Variant.ofTag s.tx.variant = some (route c)) (hrec : s.tx.records.select (route c) = p)
    (hp : p.legal s.build = true) :
    exec (requestInstr c) s = .next (framed s (frameOf c.toByte s.tx.cameraId p.bytes)) := by
  subst hrec
  rw [exec_requestInstr]
  exact transmit_of_legal ht hp (isAllowed_route c)

/-- The last byte FRAME stores is the frame's checksum. -/
theorem read_last_framed {s : State} (hwf : Memory.wf s.tx.buf) (c cam : Byte) (P : List Byte) :
    Memory.read (framed s (frameOf c cam P)).tx.buf ((framed s (frameOf c cam P)).tx.len - 1) =
      checksum (c :: cam :: P) := by
  rw [read_framed hwf, framed_len, if_pos (by rw [frameOf_length]; omega), byteAt_last_frameOf]

/-- Settles O39: `TX_BUF` holds the frame of the record's bytes, which decodes to the command's received form; the bytes
read back as the record, and a legal record is delivered. -/
theorem framedRequestsDeframeToThemselves : Obligations.FramedRequestsDeframeToThemselves := by
  unfold Obligations.FramedRequestsDeframeToThemselves
  intro s c ht hp hwf
  have hv := select_variant s.tx.records (route c)
  generalize hrec : s.tx.records.select (route c) = p at hp hv ⊢
  obtain ⟨henc, hu⟩ := Payload.legal_iff.1 hp
  have hop := receivedOperands_receivedInstr c s.tx.cameraId p.bytes
  rw [← hv, readPayload_bytes henc] at hop
  refine ⟨framed s (frameOf c.toByte s.tx.cameraId p.bytes), receivedInstr c s.tx.cameraId p.bytes,
    exec_requestInstr_of_legal ht hrec hp, rfl, ?_, fun r hr => ?_⟩
  · rw [readBytes_framed hwf]
    exact decode_frameOf (by rw [p.bytes_length, hv])
  · rw [exec_delivered hop (by rwa [hr]), command_receivedInstr, read_last_framed hwf]

/-- The message that a reception leaves in `RX_MSG`, if any: that of its operands, no member check having raised. -/
theorem eq_messageOf_of_receive {c : Command} {cam : Byte} {p : Payload} {s s' : State} {m : Message}
    (h : receive c cam p s = .next s') (hm : s'.rx.msg = some m) :
    unpackError s.build p = none ∧ m = messageOf c cam p := by
  obtain ⟨hu, hrec⟩ | ⟨e, -, hrec⟩ := receive_cases c cam p s
  · obtain rfl := Host.Outcome.next.inj (hrec.symm.trans h)
    exact ⟨hu, (Option.some.inj hm).symm⟩
  · obtain rfl := Host.Outcome.next.inj (hrec.symm.trans h)
    cases hm

/-- Settles O40: the received bytes are the frame around a slice, the message's payload is the record read from it, which
is legal and has the slice as its bytes. -/
theorem deframedMessagesFrameToTheSameBytes : Obligations.DeframedMessagesFrameToTheSameBytes := by
  unfold Obligations.DeframedMessagesFrameToTheSameBytes
  intro F i s s' q m hd hexec hmsg hbuild htag hsel hcam hwf
  obtain ⟨c, cam, P, hP, rfl, rfl⟩ := decode_rx_eq_ok_iff.1 hd
  rw [exec_receivedInstr] at hexec
  obtain ⟨hu, rfl⟩ := eq_messageOf_of_receive hexec hmsg
  have hv : (messageOf c cam (readPayload (route c) P)).payload.variant = route c := readPayload_variant ..
  rw [hv] at htag hsel
  have hframe := exec_requestInstr_of_legal htag hsel (legal_readPayload_iff.2 (by rwa [hbuild]))
  rw [hcam] at hframe
  have hbytes : (messageOf c cam (readPayload (route c) P)).payload.bytes = P := bytes_readPayload hP
  rw [hbytes] at hframe
  refine ⟨_, hframe, rfl, rfl, readBytes_framed hwf _, ?_⟩
  rw [byteAt_last_frameOf, messageOf, bytes_readPayload hP]

end Sys2Proof.Machine
end

section
/-!
PROOFS of the host's side: reads, port uses, `wait`, range and status writes as steps (20_memory.md, section 3;
30_encoding.md R111; 10_state.md, section 5), and what no step of the host can change.
-/

namespace Sys2Proof.Machine

/-! ### Reads and port uses (20_memory.md R69; 45_deframer.md, sections 2 and 3) -/

theorem readReg_afterHostPick (s : State) (rest : List HostStep) (r : Reg) :
    readReg (afterHostPick s rest) r = readReg s r :=
  readReg_congr rfl rfl rfl r

/-- The ports are functions of their inputs, the build and `RX_MSG`. -/
theorem portValue_afterHostPick (s : State) (rest : List HostStep) (p : PortUse) :
    portValue (afterHostPick s rest) p = portValue s p := by
  cases p <;> rfl

section
variable {s : State} {rest : List HostStep} (hm : mover s = .host)
include hm

theorem step_read {r : Reg} {v : Value} (hs : s.host = .read r :: rest) (hv : readReg s r = some v) :
    step s = .next (record v (afterHostPick s rest)) := by
  rw [step_host hm hs rfl, hostStep, readReg_afterHostPick, hv]

theorem step_port {p : PortUse} {v : Value} (hs : s.host = .port p :: rest) (hv : portValue s p = .ok v) :
    step s = .next (record v (afterHostPick s rest)) := by
  rw [step_host hm hs rfl, hostStep, portValue_afterHostPick, hv]

end

/-- Settles O48: the host's step records the value, and a START register is hard-wired to 0. -/
theorem readsAndPortsHaveNoSideEffect : Obligations.ReadsAndPortsHaveNoSideEffect := by
  unfold Obligations.ReadsAndPortsHaveNoSideEffect
  exact ⟨fun s rest r v hm hs hv => step_read hm hs hv, fun s rest p v hm hs hv => step_port hm hs hv,
    fun s => ⟨rfl, rfl⟩⟩

/-! ### `wait` (30_encoding.md R111) -/

theorem hostWaits_wait {s : State} {r : Reg} {v v' : Value} (h : readReg s r = some v') :
    hostWaits s (.wait r v) = decide (v' ≠ v) := by
  simp only [hostWaits, h]

/-- A turn of a host that waits passes with nothing changed. -/
theorem step_host_waits {s : State} {h : HostStep} {rest : List HostStep} (hm : mover s = .host)
    (hs : s.host = h :: rest) (hw : hostWaits s h = true) : step s = .next (afterPick s) := by
  rw [step_eq, hm]
  simp [takeTurn, hostTurn, hs, hostWaits_afterPick, hw]

/-- Settles O49: the register's value decides whether the host waits; a wait that is met is dropped. -/
theorem waitHoldsTheHostUntilTheValueIsRead : Obligations.WaitHoldsTheHostUntilTheValueIsRead := by
  unfold Obligations.WaitHoldsTheHostUntilTheValueIsRead
  intro s rest r v v' hm hs hv
  have hw := hostWaits_wait (v := v) hv
  refine ⟨fun heq => ?_, fun hne => ?_⟩
  · rw [step_host hm hs (by simp [hw, heq]), hostStep, readReg_afterHostPick, hv, afterHostPick]
  · exact step_host_waits hm hs (by simp [hw, hne])

/-! ### Range and status writes -/

/-- Settles O60: a range inside an idle `RX_BUF` is stored as its bytes, and a write of a status register is dropped. -/
theorem rangeAndStatusWritesTakeTheModelsEffect : Obligations.RangeAndStatusWritesTakeTheModelsEffect := by
  unfold Obligations.RangeAndStatusWritesTakeTheModelsEffect
  refine ⟨fun s rest off B hm hs hb hfit hwf => ?_, fun s rest v hm hs => ?_⟩
  · have hstep := (step_write hm hs).trans (hostWrite_rxBuf_idle (s := afterHostPick s rest) hb hfit)
    exact ⟨_, hstep, wf_writeBytes hwf off B, read_writeBytes hwf off B⟩
  · obtain hs | hs := hs
    · exact step_write hm hs
    · exact step_write hm hs

/-! ### What no step of the host changes (10_state.md, sections 3 to 5) -/

section
variable (t : TxChannel) (w : RegWrite)

@[simp] theorem TxChannel.written_stat : (t.written w).stat = t.stat := by cases w <;> rfl
@[simp] theorem TxChannel.written_errInfo : (t.written w).errInfo = t.errInfo := by cases w <;> rfl
@[simp] theorem TxChannel.written_buf : (t.written w).buf = t.buf := by cases w <;> rfl
@[simp] theorem TxChannel.written_len : (t.written w).len = t.len := by cases w <;> rfl

end

/-- All a step of the host can do: nothing but take the turn, or the host's next step on the block. -/
theorem step_host_cases {s s' : State} (hm : mover s = .host) (h : step s = .next s') :
    s' = afterPick s ∨
    ∃ hs rest, s.host = hs :: rest ∧ hostStep hs (afterHostPick s rest) = .next s' := by
  rw [step_eq, hm, takeTurn] at h
  obtain ⟨-, hturn⟩ | ⟨hs, rest, hhost, ⟨-, hturn⟩ | ⟨-, hturn⟩⟩ := hostTurn_cases (afterPick s)
  · exact .inl (Host.Outcome.next.inj (hturn.symm.trans h)).symm
  · exact .inl (Host.Outcome.next.inj (hturn.symm.trans h)).symm
  · exact .inr ⟨hs, rest, hhost, hturn.symm.trans h⟩

/-- The results of both channels and the build are the same in both states. -/
structure SameResults (s s' : State) : Prop where
  txErrInfo : s'.tx.errInfo = s.tx.errInfo
  txBuf : s'.tx.buf = s.tx.buf
  txLen : s'.tx.len = s.tx.len
  rxErrInfo : s'.rx.errInfo = s.rx.errInfo
  rxMsg : s'.rx.msg = s.rx.msg
  build : s'.build = s.build

theorem hostStep_sameResults {h : HostStep} {s s' : State} (hn : hostStep h s = .next s') : SameResults s s' := by
  obtain rfl | ⟨w, -, -, rfl⟩ | ⟨off, B, -, -, -, rfl⟩ | ⟨n, -, -, -, rfl⟩ | ⟨t, -, -, -, rfl⟩ | ⟨-, -, rfl⟩ | ⟨v, rfl⟩ :=
    hostStep_next hn
  case inr.inl => constructor <;> simp
  all_goals exact ⟨rfl, rfl, rfl, rfl, rfl, rfl⟩

theorem hostStep_txStat {h : HostStep} {s s' : State} (hn : hostStep h s = .next s') :
    s'.tx.stat = s.tx.stat ∨ (s'.tx.stat = 0x01#8 ∧ statBusy s.tx.stat = false ∧ h = .startTx true) := by
  obtain rfl | ⟨w, -, -, rfl⟩ | ⟨off, B, -, -, -, rfl⟩ | ⟨n, -, -, -, rfl⟩ | ⟨t, hh, hb, -, rfl⟩ | ⟨-, -, rfl⟩ | ⟨v, rfl⟩ :=
    hostStep_next hn
  case inr.inl => exact .inl (TxChannel.written_stat s.tx w)
  case inr.inr.inr.inr.inl => exact .inr ⟨statStarted_eq, hb, hh⟩
  all_goals exact .inl rfl

theorem hostStep_rxStat {h : HostStep} {s s' : State} (hn : hostStep h s = .next s') :
    s'.rx.stat = s.rx.stat ∨ (s'.rx.stat = 0x01#8 ∧ statBusy s.rx.stat = false ∧ h = .startRx true) := by
  obtain rfl | ⟨w, -, -, rfl⟩ | ⟨off, B, -, -, -, rfl⟩ | ⟨n, -, -, -, rfl⟩ | ⟨t, -, -, -, rfl⟩ | ⟨hh, hb, rfl⟩ | ⟨v, rfl⟩ :=
    hostStep_next hn
  case inr.inr.inr.inr.inr.inl => exact .inr ⟨statStarted_eq, hb, hh⟩
  all_goals exact .inl rfl

/-- Settles O50: of all the host's steps only an accepted START touches a result register, and that is the status. -/
theorem hostNeverChangesResults : Obligations.HostNeverChangesResults := by
  unfold Obligations.HostNeverChangesResults
  intro s s' hm h
  obtain rfl | ⟨hs, rest, hhost, hn⟩ := step_host_cases hm h
  · exact ⟨rfl, rfl, rfl, rfl, rfl, rfl, .inl rfl, .inl rfl⟩
  · obtain ⟨htxe, htxb, htxl, hrxe, hrxm, hbuild⟩ := hostStep_sameResults hn
    have htx := hostStep_txStat hn
    have hrx := hostStep_rxStat hn
    have hhead : s.host.head? = some hs := by rw [hhost, List.head?_cons]
    rw [hhead, Option.some.injEq, Option.some.injEq]
    exact ⟨htxe, htxb, htxl, hrxe, hrxm, hbuild, htx, hrx⟩

end Sys2Proof.Machine
end

section
/-!
PROOFS about the step: the status codes (60_exceptions.md R381; 10_state.md R29), what a BUSY channel executes, the
machine's invariant, and that a BUSY channel completes (10_state.md R39).
-/

namespace Sys2Proof.Machine

open Sys2Proof.Statements
open Sys2Proof.Config (Build)

/-! ### The status byte (10_state.md R29) -/

theorem toNat_statOf_done (c : BitVec 4) : (statOf false true c).toNat = 4 * c.toNat + 2 := by
  revert c; decide

/-- A status byte is its reserved bits, ERR, DONE and BUSY, from bit 7 down. -/
theorem toNat_stat (st : Byte) :
    st.toNat = 64 * (st.extractLsb' 6 2).toNat + 4 * (statErr st).toNat + 2 * (statDone st).toNat +
      (statBusy st).toNat := by
  have := st.isLt
  simp only [statErr, statDone, statBusy, BitVec.extractLsb'_toNat, ← BitVec.testBit_toNat, Nat.toNat_testBit,
    Nat.shiftRight_eq_div_pow]
  omega

/-- Settles O23: the codes are the table's, and the status byte is read by its bit positions. -/
theorem errorsHaveTheirCodesInTheStatus : Obligations.ErrorsHaveTheirCodesInTheStatus := by
  unfold Obligations.ErrorsHaveTheirCodesInTheStatus
  exact ⟨rfl, rfl, rfl, fun _ => rfl, fun _ _ => rfl, fun _ _ => rfl, fun _ _ _ => rfl, fun _ _ => rfl, fun _ _ => rfl,
    fun _ e => ⟨toNat_statOf_done e.code, toNat_statOf_done e.code⟩, toNat_stat⟩

/-! ### What a BUSY channel executes (10_state.md, section 8) -/

/-- Settles O34: the step is the channel's turn, which executes what it fetched. -/
theorem stepExecutesTheDecodedInstruction : Obligations.StepExecutesTheDecodedInstruction := by
  unfold Obligations.StepExecutesTheDecodedInstruction
  refine ⟨fun s F i hm hb hf hd => ?_, fun s i hm hb hd => ?_⟩
  · have hf' : rxFetch (afterPick s) = some F := hf
    rw [step_eq, hm, takeTurn, rxTurn, afterPick_rx, if_pos hb, hf']
    simp only [hd]
  · rw [step_eq, hm, takeTurn, txTurn, afterPick_tx, if_pos hb]
    simp only [hd]

/-! ### Reset (70_reset_and_hazards.md, section 1) -/

/-- Settles O54: the reset request is MODE_00's with a Poll record whose byte 0x00 is a command code, and an empty buffer
is too short. -/
theorem resetRequestsFrameAndFailAsStated : Obligations.ResetRequestsFrameAndFailAsStated := by
  unfold Obligations.ResetRequestsFrameAndFailAsStated
  have hp : (Payload.poll TxRecords.reset.poll).legal State.reset.build = true := legal_poll_iff.2 (by decide)
  exact ⟨exec_requestInstr_of_legal (s := State.reset) (c := .mode00) rfl rfl hp, rfl, rfl⟩

/-! ### The channels at reset -/

/-- The status at reset is neither BUSY nor DONE. -/
theorem statLegal_reset : StatLegal 0x00#8 :=
  statLegal_statOf (x := false) (y := false) nofun fun _ => rfl

theorem TxChannel.ok_reset : TxChannel.reset.Ok where
  stat := statLegal_reset
  codes := by decide
  report := nofun
  fresh := fun _ _ => ⟨rfl, rfl, rfl⟩
  named := nofun
  len := .inl rfl
  no_partial := fun _ => rfl
  buf_wf := Memory.wf_nil
  buf_within := nofun

theorem RxChannel.ok_reset (b : Build) : RxChannel.reset.Ok b where
  stat := statLegal_reset
  codes := by decide
  report := nofun
  fresh := fun _ _ => ⟨rfl, rfl⟩
  len := Nat.zero_le _
  no_partial := fun _ => rfl
  delivered := nofun
  message := nofun
  buf_wf := Memory.wf_nil
  buf_within := nofun

/-- Settles O55: both channels are at their reset values. -/
theorem resetMeetsTheMachineInvariant : Obligations.ResetMeetsTheMachineInvariant :=
  ⟨TxChannel.ok_reset, RxChannel.ok_reset _⟩

/-! ### The TX channel keeps its invariant -/

/-- A completed TX channel: the code is one FRAME can write, and after an error no byte counts. -/
theorem TxChannel.ok_completed (t : TxChannel) {o : Option Err} {m : Memory} {n : Nat}
    (hcode : outcomeCode o ∈ [0#4, 5#4, 6#4, 8#4]) (hlen : n = 0 ∨ (4 ≤ n ∧ n ≤ txBufCap)) (hpart : o ≠ none → n = 0)
    (hwf : Memory.wf m) (hwithin : Memory.within txBufCap m) :
    TxChannel.Ok { t with stat := statCompleted o, errInfo := o, buf := m, len := n } where
  stat := statLegal_completed o
  codes := by rwa [statErr_completed]
  report := fun _ => statErr_completed o
  fresh := fun _ hd => by simp at hd
  named := fun hb => by simp at hb
  len := hlen
  no_partial := hpart
  buf_wf := hwf
  buf_within := hwithin

section
variable {t : TxChannel} (h : t.Ok)
include h

/-- An accepted START: the channel is BUSY, and its request names a variant. -/
theorem TxChannel.Ok.started (hv : (Variant.ofTag t.variant).isSome = true) :
    TxChannel.Ok { t with stat := statStarted } where
  stat := statLegal_started
  codes := by simp
  report := fun hd => by simp at hd
  fresh := fun hb => by simp at hb
  named := fun _ => hv
  len := h.len
  no_partial := h.no_partial
  buf_wf := h.buf_wf
  buf_within := h.buf_within

/-- A WRITE of a request register of an idle channel. -/
theorem TxChannel.Ok.written (hb : statBusy t.stat = false) (w : RegWrite) : (t.written w).Ok where
  stat := by simpa using h.stat
  codes := by simpa using h.codes
  report := by simpa using h.report
  fresh := by simpa using h.fresh
  named := fun hb' => by simp [hb] at hb'
  len := by simpa using h.len
  no_partial := by simpa using h.no_partial
  buf_wf := by simpa using h.buf_wf
  buf_within := by simpa using h.buf_within

end

theorem frameResult_error_code {s : State} {c : Byte} {t : Variant} {e : Err} (h : frameResult s c t = .error e) :
    e.code ∈ [5#4, 6#4, 8#4] := by
  obtain ⟨e', hP, hF⟩ | ⟨P, -, -, hF⟩ | ⟨P, -, -, hF⟩ := frameResult_cases s c t
  · obtain rfl : e' = e := Except.error.inj (hF.symm.trans h)
    obtain ⟨v, lo, hi, rfl⟩ | ⟨fid, v, rfl⟩ := isPackError_of_encodePayload hP
    · simp [Err.code]
    · simp [Err.code]
  · simp [hF] at h
  · obtain rfl : _ = e := Except.error.inj (hF.symm.trans h)
    simp [Err.code]

theorem frameResult_ok_length {s : State} {c : Byte} {t : Variant} {F : List Byte} (h : frameResult s c t = .ok F) :
    4 ≤ F.length ∧ F.length ≤ txBufCap := by
  obtain ⟨e, -, hF⟩ | ⟨P, hP, -, hF⟩ | ⟨P, -, -, hF⟩ := frameResult_cases s c t
  · simp [hF] at h
  · obtain rfl : _ = F := Except.ok.inj (hF.symm.trans h)
    obtain ⟨-, rfl⟩ := encodePayload_eq_ok.1 hP
    have hbounds := payloadLen_bounds (s.tx.records.select t).variant
    rw [frameOf_length, Payload.bytes_length, txBufCap]
    omega
  · simp [hF] at h

/-- A BUSY TX channel's turn completes it: only TX registers change, STAT is COMPLETE's for the new ERRINFO, and the
invariant holds again. -/
theorem txTurn_completes {s : State} (h : s.Inv) (hb : statBusy s.tx.stat = true) :
    ∃ t : TxChannel, txTurn s = .next { s with tx := t } ∧ t.stat = statCompleted t.errInfo ∧ t.Ok := by
  obtain ⟨v, hv⟩ := Option.isSome_iff_exists.1 (h.tx.named hb)
  rw [txTurn_busy hb]
  cases hF : frameResult s s.tx.command v with
  | error e =>
    have hcode : outcomeCode (some e) ∈ [0#4, 5#4, 6#4, 8#4] := List.mem_cons_of_mem _ (frameResult_error_code hF)
    exact ⟨_, transmit_error hv hF, rfl,
      TxChannel.ok_completed s.tx hcode (.inl rfl) (fun _ => rfl) h.tx.buf_wf h.tx.buf_within⟩
  | ok F =>
    obtain ⟨hlo, hhi⟩ := frameResult_ok_length hF
    exact ⟨_, transmit_ok hv hF hhi, rfl,
      TxChannel.ok_completed s.tx (by decide) (.inr ⟨hlo, hhi⟩) (absurd rfl) (wf_writeBytes h.tx.buf_wf 0 F)
        (within_writeBytes h.tx.buf_within (by omega))⟩

/-! ### The RX channel keeps its invariant -/

section
variable {b : Build} {r : RxChannel} (h : r.Ok b)
include h

/-- A completed RX channel: the code is one DEFRAME can write, and there is a message exactly on success. -/
theorem RxChannel.Ok.completed {o : Option Err} {msg : Option Message}
    (hcode : outcomeCode o ∈ [0#4, 1#4, 2#4, 3#4, 4#4, 5#4]) (hpart : o ≠ none → msg = none)
    (hdel : o = none → msg ≠ none) (hmsg : ∀ m, msg = some m → m.Ok b) :
    RxChannel.Ok b { r with stat := statCompleted o, errInfo := o, msg := msg } where
  stat := statLegal_completed o
  codes := by rwa [statErr_completed]
  report := fun _ => statErr_completed o
  fresh := fun _ hd => by simp at hd
  len := h.len
  no_partial := hpart
  delivered := fun _ => hdel
  message := hmsg
  buf_wf := h.buf_wf
  buf_within := h.buf_within

theorem RxChannel.Ok.started : RxChannel.Ok b { r with stat := statStarted } where
  stat := statLegal_started
  codes := by simp
  report := fun hd => by simp at hd
  fresh := fun hb => by simp at hb
  len := h.len
  no_partial := h.no_partial
  delivered := fun hd => by simp at hd
  message := h.message
  buf_wf := h.buf_wf
  buf_within := h.buf_within

/-- A WRITE of bytes inside `RX_BUF`. -/
theorem RxChannel.Ok.writeBuf {off : Nat} {B : List Byte} (hfit : off + B.length ≤ b.rxMaxLen) :
    RxChannel.Ok b { r with buf := writeBytes r.buf off B } :=
  { h with buf_wf := wf_writeBytes h.buf_wf off B, buf_within := within_writeBytes h.buf_within hfit }

/-- A WRITE of `RX_LEN`. -/
theorem RxChannel.Ok.writeLen {n : Nat} (hn : n ≤ b.rxMaxLen) : RxChannel.Ok b { r with len := n } :=
  { h with len := hn }

end

/-- A message DEFRAME answers is routed, legal and carries its checksum. -/
theorem Message.ok_of_deframeResult {b : Build} {F : List Byte} {m : Message} (h : deframeResult b F = .ok m) : m.Ok b := by
  unfold deframeResult at h
  split at h
  next => cases h
  next i _ =>
    split at h
    next => cases h
    next hu =>
      obtain rfl := Except.ok.inj h
      exact ⟨readPayload_variant .., legal_readPayload_iff.2 hu, rfl⟩

/-- A BUSY RX channel's turn completes it, as `txTurn_completes` says of the TX channel. -/
theorem rxTurn_completes {s : State} (h : s.Inv) (hb : statBusy s.rx.stat = true) :
    ∃ r : RxChannel, rxTurn s = .next { s with rx := r } ∧ r.stat = statCompleted r.errInfo ∧ r.Ok s.build := by
  rw [rxTurn_busy hb h.rx.len]
  cases hF : deframeResult s.build (readBytes s.rx.buf 0 s.rx.len) with
  | error e =>
    have hcode : outcomeCode (some e) ∈ [0#4, 1#4, 2#4, 3#4, 4#4, 5#4] :=
      List.mem_cons_of_mem _ (deframeResult_error_code hF)
    exact ⟨_, rfl, rfl, h.rx.completed hcode (fun _ => rfl) nofun nofun⟩
  | ok m =>
    refine ⟨_, rfl, rfl, h.rx.completed (by decide) (absurd rfl) (fun _ => Option.some_ne_none m) fun m' hm' => ?_⟩
    obtain rfl := Option.some.inj hm'
    exact Message.ok_of_deframeResult hF

/-! ### Every step keeps the machine's invariant -/

theorem State.Inv.afterPick {s : State} (h : s.Inv) : (afterPick s).Inv := ⟨h.tx, h.rx⟩

theorem State.Inv.afterHostPick {s : State} (h : s.Inv) (rest : List HostStep) : (afterHostPick s rest).Inv :=
  ⟨h.tx, h.rx⟩

theorem hostStep_keeps_inv {hs : HostStep} {s s' : State} (h : s.Inv) (hn : hostStep hs s = .next s') : s'.Inv := by
  obtain rfl | ⟨w, -, hb, rfl⟩ | ⟨off, B, -, -, hfit, rfl⟩ | ⟨n, -, -, hfit, rfl⟩ | ⟨t, -, -, ht, rfl⟩ | ⟨-, -, rfl⟩ |
    ⟨v, rfl⟩ := hostStep_next hn
  · exact h
  · exact ⟨h.tx.written hb w, h.rx⟩
  · exact ⟨h.tx, h.rx.writeBuf hfit⟩
  · exact ⟨h.tx, h.rx.writeLen hfit⟩
  · exact ⟨h.tx.started (by rw [ht]; rfl), h.rx⟩
  · exact ⟨h.tx, h.rx.started⟩
  · exact ⟨h.tx, h.rx⟩

theorem txTurn_keeps_inv {s s' : State} (h : s.Inv) (hn : txTurn s = .next s') : s'.Inv ∧ s'.build = s.build := by
  cases hb : statBusy s.tx.stat with
  | false =>
    obtain rfl := Host.Outcome.next.inj ((txTurn_idle hb).symm.trans hn)
    exact ⟨h, rfl⟩
  | true =>
    obtain ⟨t, hturn, -, hok⟩ := txTurn_completes h hb
    obtain rfl := Host.Outcome.next.inj (hturn.symm.trans hn)
    exact ⟨⟨hok, h.rx⟩, rfl⟩

theorem rxTurn_keeps_inv {s s' : State} (h : s.Inv) (hn : rxTurn s = .next s') : s'.Inv ∧ s'.build = s.build := by
  cases hb : statBusy s.rx.stat with
  | false =>
    obtain rfl := Host.Outcome.next.inj ((rxTurn_idle hb).symm.trans hn)
    exact ⟨h, rfl⟩
  | true =>
    obtain ⟨r, hturn, -, hok⟩ := rxTurn_completes h hb
    obtain rfl := Host.Outcome.next.inj (hturn.symm.trans hn)
    exact ⟨⟨h.tx, hok⟩, rfl⟩

/-- Settles O56: by the agent that moves; a channel's turn completes it or changes nothing, and each kind of host step
keeps the invariant. -/
theorem everyStepKeepsTheMachineInvariant : Obligations.EveryStepKeepsTheMachineInvariant := by
  unfold Obligations.EveryStepKeepsTheMachineInvariant
  intro s s' h hn
  cases hm : mover s with
  | host =>
    obtain rfl | ⟨hs, rest, -, hstep⟩ := step_host_cases hm hn
    · exact ⟨h.afterPick, rfl⟩
    · exact ⟨hostStep_keeps_inv (h.afterHostPick rest) hstep, (hostStep_sameResults hstep).build⟩
  | tx =>
    rw [step_eq, hm] at hn
    exact txTurn_keeps_inv (s := afterPick s) h.afterPick hn
  | rx =>
    rw [step_eq, hm] at hn
    exact rxTurn_keeps_inv (s := afterPick s) h.afterPick hn
  | reset =>
    obtain rfl := Host.Outcome.next.inj ((step_reset hm).symm.trans hn)
    exact ⟨⟨TxChannel.ok_reset, RxChannel.ok_reset _⟩, rfl⟩

/-! ### Progress (60_exceptions.md, section 5; 10_state.md R39) -/

section
variable {s : State} (h : s.Inv)
include h

theorem step_tx_completes (hm : mover s = .tx) (hb : statBusy s.tx.stat = true) :
    ∃ t : TxChannel, step s = .next { afterPick s with tx := t } ∧ t.stat = statCompleted t.errInfo ∧ t.Ok := by
  rw [step_eq, hm]
  exact txTurn_completes h.afterPick hb

theorem step_rx_completes (hm : mover s = .rx) (hb : statBusy s.rx.stat = true) :
    ∃ r : RxChannel, step s = .next { afterPick s with rx := r } ∧ r.stat = statCompleted r.errInfo ∧
      r.Ok s.build := by
  rw [step_eq, hm]
  exact rxTurn_completes h.afterPick hb

/-- Unless the host moves, the step answers a next state. -/
theorem exists_step_next (hm : mover s ≠ .host) : ∃ s', step s = .next s' := by
  cases ht : mover s with
  | host => exact absurd ht hm
  | tx =>
    cases hb : statBusy s.tx.stat with
    | false => exact ⟨afterPick s, by rw [step_eq, ht]; exact txTurn_idle hb⟩
    | true =>
      obtain ⟨t, hstep, -⟩ := step_tx_completes h ht hb
      exact ⟨_, hstep⟩
  | rx =>
    cases hb : statBusy s.rx.stat with
    | false => exact ⟨afterPick s, by rw [step_eq, ht]; exact rxTurn_idle hb⟩
    | true =>
      obtain ⟨r, hstep, -⟩ := step_rx_completes h ht hb
      exact ⟨_, hstep⟩
  | reset => exact ⟨_, step_reset ht⟩

end

/-- The host's turn is no fault: it passes, or is one of the host's steps. -/
theorem hostTurn_noFault (s : State) : Answer.noFault (hostTurn s) := by
  obtain ⟨-, hturn⟩ | ⟨hs, rest, -, ⟨-, hturn⟩ | ⟨-, hturn⟩⟩ := hostTurn_cases s
  · simp [hturn, Answer.noFault]
  · simp [hturn, Answer.noFault]
  · rw [hturn]
    exact hostStep_noFault hs _

/-- Settles O57: the host's steps never fault, and every other turn answers a next state. -/
theorem theBlockNeverFaultsOrSticks : Obligations.TheBlockNeverFaultsOrSticks := by
  unfold Obligations.TheBlockNeverFaultsOrSticks
  intro s h
  refine ⟨?_, exists_step_next h⟩
  by_cases hm : mover s = .host
  · rw [step_eq, hm]
    exact hostTurn_noFault _
  · obtain ⟨s', hstep⟩ := exists_step_next h hm
    simp [hstep, Answer.noFault]

/-- Settles O58: the turn leaves COMPLETE's status for the channel's ERRINFO. -/
theorem aTurnOfABusyChannelCompletesIt : Obligations.ATurnOfABusyChannelCompletesIt := by
  unfold Obligations.ATurnOfABusyChannelCompletesIt
  refine fun s h => ⟨fun hm hb => ?_, fun hm hb => ?_⟩
  · obtain ⟨r, hstep, hstat, -⟩ := step_rx_completes h hm hb
    exact ⟨_, hstep, by simp [hstat]⟩
  · obtain ⟨t, hstep, hstat, -⟩ := step_tx_completes h hm hb
    exact ⟨_, hstep, by simp [hstat]⟩

/-! ### The default order (log entry 4) -/

section
variable {s : State} (ht : s.turns = [])
include ht

theorem mover_rx_of_busy (hb : statBusy s.rx.stat = true) : mover s = .rx := by
  simp [mover, ht, defaultTurn, hb]

theorem mover_tx_of_busy (hrx : statBusy s.rx.stat = false) (hb : statBusy s.tx.stat = true) : mover s = .tx := by
  simp [mover, ht, defaultTurn, hrx, hb]

/-- With RX idle and no turns given, the step completes a BUSY TX channel. -/
theorem step_completes_tx (h : s.Inv) (hrx : statBusy s.rx.stat = false) (hb : statBusy s.tx.stat = true) :
    ∃ s', step s = .next s' ∧ statBusy s'.tx.stat = false ∧ statBusy s'.rx.stat = false := by
  obtain ⟨t, hstep, hstat, -⟩ := step_tx_completes h (mover_tx_of_busy ht hrx hb) hb
  exact ⟨_, hstep, by simp [hstat], hrx⟩

end

/-- Settles O59: RX completes first; the state it leaves meets the invariant with no turns and RX idle, so TX is next. -/
theorem defaultOrderCompletesBusyChannels : Obligations.DefaultOrderCompletesBusyChannels := by
  unfold Obligations.DefaultOrderCompletesBusyChannels
  refine fun s h ht => ⟨fun hb => ?_, step_completes_tx ht h⟩
  obtain ⟨r, hstep, hstat, hok⟩ := step_rx_completes h (mover_rx_of_busy ht hb) hb
  have hidle : statBusy r.stat = false := by simp [hstat]
  have hturns : s.turns.tail = [] := by rw [ht, List.tail_nil]
  exact ⟨_, hstep, hidle, step_completes_tx (s := { afterPick s with rx := r }) hturns ⟨h.tx, hok⟩ hidle⟩

end Sys2Proof.Machine
end
